-- ==== Sys2Proof/Word.lean ====
section
/-! DEFINITION. The byte, the operand widths of the request port, and the enumerated types of
spec/00_scope.md rule R9. -/

namespace Sys2Proof

/-- A byte: an unsigned 8-bit value (R5). -/
abbrev Byte := BitVec 8

/-- A command nibble or a channel nibble of `byte0`, and the `ch` request operand (R8, R39), of the width of
the machine's `Config.chPortW` (decision D3, log entry 12). -/
abbrev Nibble := BitVec 4

/-- The `code` request operand: 16 bits, so that every rejected code of the source can be
presented (R39, decision D3). It is the type at the machine's `Config.codePortW` (log entry 12). -/
abbrev CodeOperand := BitVec 16

/-- A `DacCode`: 12 significant bits (R4 `CODE_BITS`). -/
abbrev DacCode := BitVec 12

/-- A `ChannelMask` or `LdacMask`: bit i belongs to channel i (R34, R60). -/
abbrev Mask := BitVec 8

/-- Keep the low 8 bits of a natural number: what storing into a frame byte, or `& 0xFF`, does (R6). -/
def narrow (v : Nat) : Byte := BitVec.ofNat 8 v

/-- WriteUpdateMode (R9), the type of `WUM` (R10). -/
inductive WriteUpdateMode where
  /-- write-only: buffer, no output change -/
  | wo
  /-- write-and-update-this-channel -/
  | wu1
  /-- write-and-update-all-channels -/
  | wuall
  deriving DecidableEq, Repr, Inhabited

/-- PowerMode (R9). -/
inductive PowerMode where
  /-- powered-on -/
  | on
  /-- pull-down-1k -/
  | pd1k
  /-- pull-down-100k -/
  | pd100k
  /-- high-impedance -/
  | hiz
  deriving DecidableEq, Repr

/-- ReferenceStaticMode (R9). -/
inductive ReferenceStaticMode where
  | on
  | off
  deriving DecidableEq, Repr

/-- ReferenceFlexiMode (R9). -/
inductive ReferenceFlexiMode where
  /-- follow-DAC-activity -/
  | follow
  /-- always-on -/
  | on
  /-- always-off -/
  | off
  /-- defer-to-static-register -/
  | static
  deriving DecidableEq, Repr

/-- ClearCode (R9). -/
inductive ClearCode where
  /-- to-zero -/
  | zero
  /-- to-mid-scale -/
  | mid
  /-- to-full-scale -/
  | full
  /-- disable-clear-pin-effect -/
  | disable
  deriving DecidableEq, Repr

/-- ResetMode (R9). -/
inductive ResetMode where
  /-- reset -/
  | reset
  /-- reset-and-enter-high-speed -/
  | resetHs
  /-- reset-keep-high-speed -/
  | resetKeepHs
  deriving DecidableEq, Repr

/-- The two kinds of error RC raises (R9, R90). -/
inductive ErrorKind where
  /-- "code outside [0,4095]" (R91) -/
  | invalidValue
  /-- "channel ordinal outside the valid set for the operation" (R92) -/
  | invalidChannel
  deriving DecidableEq, Repr

/-- The type of the pending-read latch `RSEL` (R11): `none`, or the register class whose decode rule
the reply will get. -/
inductive ReadClass where
  | none
  | value
  | pwr
  | clr
  | ldac
  | refs
  | reff
  deriving DecidableEq, Repr

/-- All members of PowerMode, in the source's order (R9). -/
def PowerMode.members : List PowerMode := [.on, .pd1k, .pd100k, .hiz]

/-- All members of ReferenceFlexiMode, in the source's order (R9). -/
def ReferenceFlexiMode.members : List ReferenceFlexiMode := [.follow, .on, .off, .static]

/-- All members of ResetMode, in the source's order (R9). -/
def ResetMode.members : List ResetMode := [.reset, .resetHs, .resetKeepHs]

/-- All members of ClearCode, in the source's order (R9). -/
def ClearCode.members : List ClearCode := [.zero, .mid, .full, .disable]

end Sys2Proof
end

