-- ==== Sys2Proof/Config.lean ====
section
/-! DEFINITION. The implementation parameters of RC (spec/00_scope.md rule R4): one field per parameter
with the spec's value as its default, and the one parameter the spec leaves open. The widths and
frame lengths that the source itself states are fixed in types (log entry 12). -/

namespace Sys2Proof

/-- The parameter record of R4. Every field but `wumReset` has the spec's value as default; the
docstring gives the parameter's name in R4 and the ground of its value. -/
structure Config where
  /-- `NCH`, source: channels 0 to 7 = A to H. -/
  nch : Nat := 8
  /-- `CODE_MAX`, source. -/
  codeMax : Nat := 4095
  /-- `CODE_PORT_W`, D3: width of the `code` request operand. -/
  codePortW : Nat := 16
  /-- `CH_PORT_W`, D3: width of the `ch` request operand. -/
  chPortW : Nat := 4
  /-- `CH_ALL`, D4, general knowledge: operand value and wire nibble of the all-channels code. -/
  chAll : Nibble := 0xF
  /-- `OP_WO`, D5, general knowledge. -/
  opWo : Nibble := 0x0
  /-- `OP_WU1`, D5, general knowledge. -/
  opWu1 : Nibble := 0x3
  /-- `OP_WUALL`, D5, general knowledge. -/
  opWuall : Nibble := 0x2
  /-- `OP_UPD`, source. -/
  opUpd : Nibble := 0x1
  /-- `OP_PWR`, source. -/
  opPwr : Nibble := 0x4
  /-- `OP_CLR`, source. -/
  opClr : Nibble := 0x5
  /-- `OP_LDAC`, source. -/
  opLdac : Nibble := 0x6
  /-- `OP_RST`, source. -/
  opRst : Nibble := 0x7
  /-- `OP_REFS`, source. -/
  opRefs : Nibble := 0x8
  /-- `OP_REFF`, source. -/
  opReff : Nibble := 0x9
  /-- `RD_OP_IN`, D12, general knowledge. -/
  rdOpIn : Nibble := 0x0
  /-- `RD_OP_DAC`, D12, general knowledge. -/
  rdOpDac : Nibble := 0x1
  /-- `PMCODE`, D6. -/
  pmCode : PowerMode → BitVec 2 := fun
    | .on => 0
    | .pd1k => 1
    | .pd100k => 2
    | .hiz => 3
  /-- `PM_SHIFT`, D7 (spec/90_conflicts.md C1). -/
  pmShift : Nat := 5
  /-- `CCCODE`, D8. -/
  ccCode : ClearCode → BitVec 2 := fun
    | .zero => 0
    | .mid => 1
    | .full => 2
    | .disable => 3
  /-- `RSTBYTE`, D9, general knowledge. -/
  rstByte : ResetMode → Byte := fun
    | .reset => 0x00
    | .resetHs => 0x40
    | .resetKeepHs => 0x80
  /-- `REFS_ON`, D10: the value of `byte2` bit 4 that means reference on. -/
  refsOn : BitVec 1 := 1
  /-- `FLEXI`, source. -/
  flexi : ReferenceFlexiMode → Byte := fun
    | .follow => 0x40
    | .on => 0x50
    | .off => 0x60
    | .static => 0x00
  /-- `PWR_RD_SHIFT`, source, hedged (C2). -/
  pwrRdShift : Nat := 5
  /-- `CLR_RD_SHIFT`, D13. -/
  clrRdShift : Nat := 4
  /-- `REFS_RD_SHIFT`, D13. -/
  refsRdShift : Nat := 4
  /-- `REFF_RD_SHIFT`, D13. -/
  reffRdShift : Nat := 4
  /-- `ERR_OK`, D15. -/
  errOk : BitVec 2 := 0
  /-- `ERR_VALUE`, D15. -/
  errValue : BitVec 2 := 1
  /-- `ERR_CHANNEL`, D15. -/
  errChannel : BitVec 2 := 2
  /-- `WUM_RESET`, OPEN: the spec chooses no value (R10, R100, D18). -/
  wumReset : WriteUpdateMode

/-- `WUM_RESET`: the write-update mode after reset, which the spec leaves open (R10, R100, D18:
"a model that cannot take a parameter must let it be any of the three"). It has no body, so nothing
can be proved of it but that it is one of the three modes (log entry 1). -/
opaque Config.openWumReset : WriteUpdateMode

/-- The configuration of the machine: every parameter at the spec's value, the open one left open. -/
abbrev Config.rc : Config where
  wumReset := Config.openWumReset

/-- The command nibble of a value write in each mode (R35, R51). -/
def Config.writeOp (c : Config) : WriteUpdateMode → Nibble
  | .wo => c.opWo
  | .wu1 => c.opWu1
  | .wuall => c.opWuall

/-- The `err` code of each error kind (R90). -/
def Config.errCode (c : Config) : ErrorKind → BitVec 2
  | .invalidValue => c.errValue
  | .invalidChannel => c.errChannel

end Sys2Proof
end

