-- ==== Sys2Proof/Syntax.lean ====
section
/-! DEFINITION. The operations of RC, one constructor per row of spec/opcode_table.json, and the events
the host presents, at the level of the port's bits (R39, R40, R102). -/

namespace Sys2Proof

/-- One constructor per row of spec/opcode_table.json. The table splits `WRITE` by the write mode in
force and `REPLY` by the class of the pending read, and so does this type: the event decoder picks
the row from `WUM` or `RSEL` (log entry 6). -/
inductive Instr where
  /-- `SETMODE m` (R50) -/
  | setmode (m : WriteUpdateMode)
  /-- `WRITE ch, code` while `WUM = wo` (R52) -/
  | writeWo (ch : Nibble) (code : CodeOperand)
  /-- `WRITE ch, code` while `WUM = wu1` (R52) -/
  | writeWu1 (ch : Nibble) (code : CodeOperand)
  /-- `WRITE ch, code` while `WUM = wuall` (R52) -/
  | writeWuall (ch : Nibble) (code : CodeOperand)
  /-- `UPDATE ch` (R54) -/
  | update (ch : Nibble)
  /-- `POWER pm, mask` (R60) -/
  | power (pm : PowerMode) (mask : Mask)
  /-- `CLRCODE cc` (R61) -/
  | clrcode (cc : ClearCode)
  /-- `LDACMASK mask` (R62) -/
  | ldacmask (mask : Mask)
  /-- `SWRESET rm` (R64) -/
  | swreset (rm : ResetMode)
  /-- `REFSTATIC s` (R65) -/
  | refstatic (m : ReferenceStaticMode)
  /-- `REFFLEXI f` (R66) -/
  | refflexi (f : ReferenceFlexiMode)
  /-- `GETVAL ch` (R70) -/
  | getval (ch : Nibble)
  /-- `GETDAC ch` (R71) -/
  | getdac (ch : Nibble)
  /-- `GETPWR` (R72) -/
  | getpwr
  /-- `GETCLR` (R73) -/
  | getclr
  /-- `GETLDAC` (R74) -/
  | getldac
  /-- `GETREFS` (R75) -/
  | getrefs
  /-- `GETREFF` (R76) -/
  | getreff
  /-- `REPLY rx0, rx1` while `RSEL = value` (R80, R81) -/
  | replyValue (rx0 rx1 : Byte)
  /-- `REPLY rx0, rx1` while `RSEL = pwr` (R80, R82) -/
  | replyPwr (rx0 rx1 : Byte)
  /-- `REPLY rx0, rx1` while `RSEL = clr` (R80, R83) -/
  | replyClr (rx0 rx1 : Byte)
  /-- `REPLY rx0, rx1` while `RSEL = ldac` (R80, R84) -/
  | replyLdac (rx0 rx1 : Byte)
  /-- `REPLY rx0, rx1` while `RSEL = refs` (R80, R85) -/
  | replyRefs (rx0 rx1 : Byte)
  /-- `REPLY rx0, rx1` while `RSEL = reff` (R80, R86) -/
  | replyReff (rx0 rx1 : Byte)
  /-- `ABORT` (R88) -/
  | abort
  deriving DecidableEq, Repr

/-- The request port (R39): `op` and the operands. Operands an operation does not name are ignored. -/
structure Request where
  op : BitVec 4
  ch : Nibble
  code : CodeOperand
  mask : Mask
  opt : BitVec 2
  deriving DecidableEq, Repr

/-- One thing the host does to RC (R102): a request, a reply with its two free bytes (R25), an abort,
or reset. -/
inductive Event where
  | request (r : Request)
  | reply (rx0 rx1 : Byte)
  | abort
  | reset
  deriving DecidableEq, Repr

end Sys2Proof
end

