-- ==== Sys2Proof/WellFormed.lean ====
section
/-! DEFINITION. Which operand values each operation has a frame for. An operation that is not well formed
is still a legal request: it raises the error of R91 or R92. -/

namespace Sys2Proof

/-- A channel ordinal, 0 to 7 (R34). -/
abbrev isOrdinal (ch : Nibble) : Bool := decide (ch.toNat ≤ 7)

/-- A legal code, 0 to 4095 (R33). -/
abbrev isCode (code : CodeOperand) : Bool := decide (code.toNat ≤ 4095)

/-- The operands are in the range that R51, R77, R91 and R92 give the operation: its step raises no
error. The mask, option and reply operands have no illegal value. -/
def Instr.wellFormed : Instr → Bool
  | .writeWo ch code => isOrdinal ch && isCode code
  | .writeWu1 ch code => isOrdinal ch && isCode code
  | .writeWuall ch code => (isOrdinal ch || decide (ch = 0xF)) && isCode code
  | .getval ch => isOrdinal ch
  | .getdac ch => isOrdinal ch
  | .setmode _ => true
  | .update _ => true
  | .power _ _ => true
  | .clrcode _ => true
  | .ldacmask _ => true
  | .swreset _ => true
  | .refstatic _ => true
  | .refflexi _ => true
  | .getpwr => true
  | .getclr => true
  | .getldac => true
  | .getrefs => true
  | .getreff => true
  | .replyValue _ _ => true
  | .replyPwr _ _ => true
  | .replyClr _ _ => true
  | .replyLdac _ _ => true
  | .replyRefs _ _ => true
  | .replyReff _ _ => true
  | .abort => true

end Sys2Proof
end

