-- ==== Sys2Proof/Decode.lean ====
section
/-! DEFINITION. The two layers of encoding of spec/30_encoding.md. The request port: `decodeEvent` and
`encodeEvent` (R39, R40, R47). The wire: `decode`, total on any bytes and rejecting by name, and `encode`,
both written from the patterns of R41, for any bytes `RSTBYTE` of the reset modes (R64, D9). -/

namespace Sys2Proof

/-! ## The request port -/

/-- Why the port gives no operation for an event. -/
inductive PortError where
  /-- an `opt` value outside the list of its operation (R47) -/
  | unlistedOption
  /-- a reply with no read pending has no decode rule (R80) -/
  | replyWithoutRead
  /-- reset is an event of its own and no operation (R100) -/
  | resetIsNoOperation
  deriving DecidableEq, Repr

/-- `opt` codes of `SETMODE` (R40); 3 is unlisted (R47). -/
def WriteUpdateMode.ofOpt (opt : BitVec 2) : Option WriteUpdateMode :=
  match opt.toNat with
  | 0 => some .wo
  | 1 => some .wu1
  | 2 => some .wuall
  | _ => none

/-- `opt` codes of `POWER` (R40). -/
def PowerMode.ofOpt (opt : BitVec 2) : PowerMode :=
  match opt.toNat with
  | 0 => .on
  | 1 => .pd1k
  | 2 => .pd100k
  | _ => .hiz

/-- `opt` codes of `CLRCODE` (R40). -/
def ClearCode.ofOpt (opt : BitVec 2) : ClearCode :=
  match opt.toNat with
  | 0 => .zero
  | 1 => .mid
  | 2 => .full
  | _ => .disable

/-- `opt` codes of `SWRESET` (R40); 3 is unlisted (R47). -/
def ResetMode.ofOpt (opt : BitVec 2) : Option ResetMode :=
  match opt.toNat with
  | 0 => some .reset
  | 1 => some .resetHs
  | 2 => some .resetKeepHs
  | _ => none

/-- `opt` codes of `REFSTATIC` (R40); 2 and 3 are unlisted (R47). -/
def ReferenceStaticMode.ofOpt (opt : BitVec 2) : Option ReferenceStaticMode :=
  match opt.toNat with
  | 0 => some .off
  | 1 => some .on
  | _ => none

/-- `opt` codes of `REFFLEXI` (R40). -/
def ReferenceFlexiMode.ofOpt (opt : BitVec 2) : ReferenceFlexiMode :=
  match opt.toNat with
  | 0 => .follow
  | 1 => .on
  | 2 => .off
  | _ => .static

/-- The `opt` code of each WriteUpdateMode, which is also its port code in `WUM` (R10, R40). -/
def WriteUpdateMode.portCode : WriteUpdateMode → BitVec 2
  | .wo => 0
  | .wu1 => 1
  | .wuall => 2

/-- The `opt` code of each PowerMode (R40). -/
def PowerMode.portCode : PowerMode → BitVec 2
  | .on => 0
  | .pd1k => 1
  | .pd100k => 2
  | .hiz => 3

/-- The `opt` code of each ClearCode (R40). -/
def ClearCode.portCode : ClearCode → BitVec 2
  | .zero => 0
  | .mid => 1
  | .full => 2
  | .disable => 3

/-- The `opt` code of each ResetMode (R40). -/
def ResetMode.portCode : ResetMode → BitVec 2
  | .reset => 0
  | .resetHs => 1
  | .resetKeepHs => 2

/-- The `opt` code of each ReferenceStaticMode (R40). -/
def ReferenceStaticMode.portCode : ReferenceStaticMode → BitVec 2
  | .off => 0
  | .on => 1

/-- The `opt` code of each ReferenceFlexiMode (R40). -/
def ReferenceFlexiMode.portCode : ReferenceFlexiMode → BitVec 2
  | .follow => 0
  | .on => 1
  | .off => 2
  | .static => 3

/-- The port code of each value of `RSEL` (R11). -/
def ReadClass.portCode : ReadClass → BitVec 3
  | .none => 0
  | .value => 1
  | .pwr => 2
  | .clr => 3
  | .ldac => 4
  | .refs => 5
  | .reff => 6

/-- The row of a `WRITE` request in the mode in force (spec/opcode_table.json, R52). -/
def writeRow (wum : WriteUpdateMode) (ch : Nibble) (code : CodeOperand) : Instr :=
  match wum with
  | .wo => .writeWo ch code
  | .wu1 => .writeWu1 ch code
  | .wuall => .writeWuall ch code

/-- The operation named by a request, `WRITE` taking its row from the mode in force (R40, R47, R52). -/
def decodeRequest (wum : WriteUpdateMode) (r : Request) : Except PortError Instr :=
  let listed (i : Option Instr) : Except PortError Instr := match i with
    | some i => .ok i
    | none => .error .unlistedOption
  match r.op.toNat with
  | 0 => listed ((WriteUpdateMode.ofOpt r.opt).map .setmode)
  | 1 => .ok (writeRow wum r.ch r.code)
  | 2 => .ok (.update r.ch)
  | 3 => .ok (.power (PowerMode.ofOpt r.opt) r.mask)
  | 4 => .ok (.clrcode (ClearCode.ofOpt r.opt))
  | 5 => .ok (.ldacmask r.mask)
  | 6 => listed ((ResetMode.ofOpt r.opt).map .swreset)
  | 7 => listed ((ReferenceStaticMode.ofOpt r.opt).map .refstatic)
  | 8 => .ok (.refflexi (ReferenceFlexiMode.ofOpt r.opt))
  | 9 => .ok (.getval r.ch)
  | 10 => .ok (.getdac r.ch)
  | 11 => .ok .getpwr
  | 12 => .ok .getclr
  | 13 => .ok .getldac
  | 14 => .ok .getrefs
  | _ => .ok .getreff

/-- The row of a `REPLY` in the class of the pending read: nothing in the reply itself says how to read
it (R38, R43). -/
def replyRow (rsel : ReadClass) (rx0 rx1 : Byte) : Option Instr :=
  match rsel with
  | .none => none
  | .value => some (.replyValue rx0 rx1)
  | .pwr => some (.replyPwr rx0 rx1)
  | .clr => some (.replyClr rx0 rx1)
  | .ldac => some (.replyLdac rx0 rx1)
  | .refs => some (.replyRefs rx0 rx1)
  | .reff => some (.replyReff rx0 rx1)

/-- The operation an event stands for, given the state that selects the row (R40, R80, R88). -/
def decodeEvent (wum : WriteUpdateMode) (rsel : ReadClass) : Event → Except PortError Instr
  | .request r => decodeRequest wum r
  | .reply rx0 rx1 => match replyRow rsel rx0 rx1 with
    | some i => .ok i
    | none => .error .replyWithoutRead
  | .abort => .ok .abort
  | .reset => .error .resetIsNoOperation

/-- The event that presents an operation, its unnamed operands 0 (R39, R40). -/
def encodeEvent : Instr → Event
  | .setmode m => .request ⟨0, 0, 0, 0, m.portCode⟩
  | .writeWo ch code => .request ⟨1, ch, code, 0, 0⟩
  | .writeWu1 ch code => .request ⟨1, ch, code, 0, 0⟩
  | .writeWuall ch code => .request ⟨1, ch, code, 0, 0⟩
  | .update ch => .request ⟨2, ch, 0, 0, 0⟩
  | .power pm mask => .request ⟨3, 0, 0, mask, pm.portCode⟩
  | .clrcode cc => .request ⟨4, 0, 0, 0, cc.portCode⟩
  | .ldacmask mask => .request ⟨5, 0, 0, mask, 0⟩
  | .swreset rm => .request ⟨6, 0, 0, 0, rm.portCode⟩
  | .refstatic m => .request ⟨7, 0, 0, 0, m.portCode⟩
  | .refflexi f => .request ⟨8, 0, 0, 0, f.portCode⟩
  | .getval ch => .request ⟨9, ch, 0, 0, 0⟩
  | .getdac ch => .request ⟨10, ch, 0, 0, 0⟩
  | .getpwr => .request ⟨11, 0, 0, 0, 0⟩
  | .getclr => .request ⟨12, 0, 0, 0, 0⟩
  | .getldac => .request ⟨13, 0, 0, 0, 0⟩
  | .getrefs => .request ⟨14, 0, 0, 0, 0⟩
  | .getreff => .request ⟨15, 0, 0, 0, 0⟩
  | .replyValue rx0 rx1 => .reply rx0 rx1
  | .replyPwr rx0 rx1 => .reply rx0 rx1
  | .replyClr rx0 rx1 => .reply rx0 rx1
  | .replyLdac rx0 rx1 => .reply rx0 rx1
  | .replyRefs rx0 rx1 => .reply rx0 rx1
  | .replyReff rx0 rx1 => .reply rx0 rx1
  | .abort => .abort

/-- The write mode that an operation's table row is conditional on (spec/opcode_table.json,
"condition"). -/
def Instr.rowMode : Instr → Option WriteUpdateMode
  | .writeWo _ _ => some .wo
  | .writeWu1 _ _ => some .wu1
  | .writeWuall _ _ => some .wuall
  | .setmode _ | .update _ | .power _ _ | .clrcode _ | .ldacmask _ | .swreset _ | .refstatic _
  | .refflexi _ | .getval _ | .getdac _ | .getpwr | .getclr | .getldac | .getrefs | .getreff
  | .replyValue _ _ | .replyPwr _ _ | .replyClr _ _ | .replyLdac _ _ | .replyRefs _ _
  | .replyReff _ _ | .abort => none

/-- The value of `RSEL` that an operation's row asks for: `none` for the sixteen requests (R102), the
class of the row for a reply, nothing for `ABORT`. -/
def Instr.rowClass : Instr → Option ReadClass
  | .replyValue _ _ => some .value
  | .replyPwr _ _ => some .pwr
  | .replyClr _ _ => some .clr
  | .replyLdac _ _ => some .ldac
  | .replyRefs _ _ => some .refs
  | .replyReff _ _ => some .reff
  | .abort => none
  | .setmode _ | .writeWo _ _ | .writeWu1 _ _ | .writeWuall _ _ | .update _ | .power _ _ | .clrcode _
  | .ldacmask _ | .swreset _ | .refstatic _ | .refflexi _ | .getval _ | .getdac _ | .getpwr
  | .getclr | .getldac | .getrefs | .getreff => some .none

/-- The operation is one of the six `REPLY` rows, whose wire bytes come from the host (R30). -/
def Instr.isReply : Instr → Bool
  | .replyValue _ _ | .replyPwr _ _ | .replyClr _ _ | .replyLdac _ _ | .replyRefs _ _
  | .replyReff _ _ => true
  | .setmode _ | .writeWo _ _ | .writeWu1 _ _ | .writeWuall _ _ | .update _ | .power _ _ | .clrcode _
  | .ldacmask _ | .swreset _ | .refstatic _ | .refflexi _ | .getval _ | .getdac _ | .getpwr
  | .getclr | .getldac | .getrefs | .getreff | .abort => false

/-- The two state elements select this operation's row. -/
abbrev Instr.selected (i : Instr) (wum : WriteUpdateMode) (rsel : ReadClass) : Bool :=
  decide (i.rowMode.getD wum = wum) && decide (i.rowClass.getD rsel = rsel)

/-! ## The wire -/

/-- Why a byte sequence is no operation on the wire. -/
inductive WireError where
  /-- no format has this length (R30) -/
  | badLength
  /-- an encoding RC never emits (R46) -/
  | reservedEncoding
  /-- a reply carries no tag, and no read is pending that would say how to read it (R38, R43) -/
  | replyWithoutRead
  deriving DecidableEq, Repr

/-- `byte0[7:4]`, the command nibble (R8). -/
def commandNibble (b0 : Byte) : Nibble := b0.extractLsb' 4 4

/-- `byte0[3:0]`, the channel nibble (R8). -/
def channelNibble (b0 : Byte) : Nibble := b0.extractLsb' 0 4

/-- Keep an operation if the bits that its pattern fixes are as R41 shows them. -/
def whenWire (legal : Bool) (i : Instr) : Except WireError Instr :=
  if legal then .ok i else .error .reservedEncoding

/-- The code field `dddddddd dddd0000` of a value write (R41), as a request operand. -/
def wireCode (b1 b2 : Byte) : CodeOperand := 0#4 ++ b1 ++ b2.extractLsb' 4 4

/-- The reset mode whose `RSTBYTE` is `b`, if there is one. The three bytes are an argument: nothing is known
of them but that they are bytes (R64, C6, D9). -/
def ResetMode.ofByte (rst : ResetMode → Byte) (b : Byte) : Option ResetMode :=
  ResetMode.members.find? fun rm => rst rm == b

/-- A write frame W3, by the patterns of R41. -/
def decodeWriteFrame (rst : ResetMode → Byte) (b0 b1 b2 : Byte) : Except WireError Instr :=
  let n := channelNibble b0
  let global := decide (n = 0)
  let low := decide (b2.extractLsb' 0 4 = 0)
  match (commandNibble b0).toNat with
  | 0 => whenWire (isOrdinal n && low) (.writeWo n (wireCode b1 b2))
  | 1 => whenWire (global && decide (b1 = 0) && decide (b2 = 0)) (.update 0)
  | 2 => whenWire ((isOrdinal n || decide (n = 0xF)) && low) (.writeWuall n (wireCode b1 b2))
  | 3 => whenWire (isOrdinal n && low) (.writeWu1 n (wireCode b1 b2))
  | 4 => whenWire (global && decide (b1.extractLsb' 7 1 = 0) && decide (b2.extractLsb' 0 5 = 0))
      (.power (PowerMode.ofOpt (b1.extractLsb' 5 2)) (b1.extractLsb' 0 5 ++ b2.extractLsb' 5 3))
  | 5 => whenWire (global && decide (b1 = 0) && decide (b2.extractLsb' 6 2 = 0) && low)
      (.clrcode (ClearCode.ofOpt (b2.extractLsb' 4 2)))
  | 6 => whenWire (global && decide (b2 = 0)) (.ldacmask b1)
  | 7 => match ResetMode.ofByte rst b1 with
    | some rm => whenWire (global && decide (b2 = 0)) (.swreset rm)
    | none => .error .reservedEncoding
  | 8 => match b2.toNat with
    | 0x00 => whenWire (global && decide (b1 = 0)) (.refstatic .off)
    | 0x10 => whenWire (global && decide (b1 = 0)) (.refstatic .on)
    | _ => .error .reservedEncoding
  | 9 => match b1.toNat with
    | 0x40 => whenWire (global && decide (b2 = 0)) (.refflexi .follow)
    | 0x50 => whenWire (global && decide (b2 = 0)) (.refflexi .on)
    | 0x60 => whenWire (global && decide (b2 = 0)) (.refflexi .off)
    | 0x00 => whenWire (global && decide (b2 = 0)) (.refflexi .static)
    | _ => .error .reservedEncoding
  | _ => .error .reservedEncoding

/-- A select frame S1, by the patterns of R41. -/
def decodeSelectFrame (b0 : Byte) : Except WireError Instr :=
  let n := channelNibble b0
  let global := decide (n = 0)
  match (commandNibble b0).toNat with
  | 0 => whenWire (isOrdinal n) (.getval n)
  | 1 => whenWire (isOrdinal n) (.getdac n)
  | 4 => whenWire global .getpwr
  | 5 => whenWire global .getclr
  | 6 => whenWire global .getldac
  | 8 => whenWire global .getrefs
  | 9 => whenWire global .getreff
  | _ => .error .reservedEncoding

/-- The operation that a byte sequence stands for on the wire: the length alone tells the formats apart
(R43), and the class of the pending read says which reply it is (R38). -/
def decodeWith (rst : ResetMode → Byte) (rsel : ReadClass) : List Byte → Except WireError Instr
  | [b0] => decodeSelectFrame b0
  | [rx0, rx1] => match replyRow rsel rx0 rx1 with
    | some i => .ok i
    | none => .error .replyWithoutRead
  | [b0, b1, b2] => decodeWriteFrame rst b0 b1 b2
  | _ => .error .badLength

/-- The wire decoder at the machine's configuration. -/
def decode (rsel : ReadClass) (bytes : List Byte) : Except WireError Instr :=
  decodeWith Config.rc.rstByte rsel bytes

/-- The payload of a value write, `dddddddd` then `dddd0000` (R33, R41). -/
def encodeValueWrite (op ch : Nibble) (code : CodeOperand) : List Byte :=
  [op ++ ch, code.extractLsb' 4 8, code.extractLsb' 0 4 ++ 0#4]

/-- The bytes of a well-formed operation on the wire, by the patterns of R41, the byte of a reset mode being
an argument. `SETMODE` and `ABORT` have no frame. -/
def encodeWith (rst : ResetMode → Byte) : Instr → List Byte
  | .setmode _ => []
  | .writeWo ch code => encodeValueWrite 0b0000 ch code
  | .writeWu1 ch code => encodeValueWrite 0b0011 ch code
  | .writeWuall ch code => encodeValueWrite 0b0010 ch code
  | .update _ => [0b0001_0000, 0, 0]
  | .power pm mask => [0b0100_0000, 0#1 ++ pm.portCode ++ mask.extractLsb' 3 5, mask.extractLsb' 0 3 ++ 0#5]
  | .clrcode cc => [0b0101_0000, 0, 0#2 ++ cc.portCode ++ 0#4]
  | .ldacmask mask => [0b0110_0000, mask, 0]
  | .swreset rm => [0b0111_0000, rst rm, 0]
  | .refstatic .on => [0b1000_0000, 0, 0b0001_0000]
  | .refstatic .off => [0b1000_0000, 0, 0b0000_0000]
  | .refflexi .follow => [0b1001_0000, 0b0100_0000, 0]
  | .refflexi .on => [0b1001_0000, 0b0101_0000, 0]
  | .refflexi .off => [0b1001_0000, 0b0110_0000, 0]
  | .refflexi .static => [0b1001_0000, 0b0000_0000, 0]
  | .getval ch => [0b0000#4 ++ ch]
  | .getdac ch => [0b0001#4 ++ ch]
  | .getpwr => [0b0100_0000]
  | .getclr => [0b0101_0000]
  | .getldac => [0b0110_0000]
  | .getrefs => [0b1000_0000]
  | .getreff => [0b1001_0000]
  | .replyValue rx0 rx1 => [rx0, rx1]
  | .replyPwr rx0 rx1 => [rx0, rx1]
  | .replyClr rx0 rx1 => [rx0, rx1]
  | .replyLdac rx0 rx1 => [rx0, rx1]
  | .replyRefs rx0 rx1 => [rx0, rx1]
  | .replyReff rx0 rx1 => [rx0, rx1]
  | .abort => []

/-- The wire encoder at the machine's configuration. -/
def encode (i : Instr) : List Byte := encodeWith Config.rc.rstByte i

/-- The operation with the operand that its frame does not carry at 0: only `UPDATE` has one (R54). -/
def Instr.canonical : Instr → Instr
  | .update _ => .update 0
  | i => i

/-- The operation has a frame (R41): all but `SETMODE` and `ABORT`. -/
def Instr.hasFrame (i : Instr) : Bool := !(encode i).isEmpty

/-- A byte sequence as the one number spec/opcode_table.json writes it as: the first byte is the most
significant (log entry 7). -/
def frameNumber (bytes : List Byte) : Nat := bytes.foldl (fun n b => n * 256 + b.toNat) 0

/-- The `n` bytes of the number `w`, most significant first. -/
def frameBytes : Nat → Nat → List Byte
  | 0, _ => []
  | n + 1, w => frameBytes n (w / 256) ++ [narrow w]

/-- A row of spec/opcode_table.json as bits: its length in bytes, and `match` and `mask` as the table
writes them. -/
structure TableRow where
  bytes : Nat
  pattern : Nat
  mask : Nat
  deriving DecidableEq, Repr

/-- The row of each operation, transcribed from spec/opcode_table.json. -/
def Instr.tableRow : Instr → TableRow
  | .setmode _ => ⟨0, 0x0, 0x0⟩
  | .writeWo _ _ => ⟨3, 0x000000, 0xF0000F⟩
  | .writeWu1 _ _ => ⟨3, 0x300000, 0xF0000F⟩
  | .writeWuall _ _ => ⟨3, 0x200000, 0xF0000F⟩
  | .update _ => ⟨3, 0x100000, 0xFFFFFF⟩
  | .power _ _ => ⟨3, 0x400000, 0xFF801F⟩
  | .clrcode _ => ⟨3, 0x500000, 0xFFFFCF⟩
  | .ldacmask _ => ⟨3, 0x600000, 0xFF00FF⟩
  | .swreset _ => ⟨3, 0x700000, 0xFF00FF⟩
  | .refstatic _ => ⟨3, 0x800000, 0xFFFFEF⟩
  | .refflexi _ => ⟨3, 0x900000, 0xFF8FFF⟩
  | .getval _ => ⟨1, 0x00, 0xF0⟩
  | .getdac _ => ⟨1, 0x10, 0xF0⟩
  | .getpwr => ⟨1, 0x40, 0xFF⟩
  | .getclr => ⟨1, 0x50, 0xFF⟩
  | .getldac => ⟨1, 0x60, 0xFF⟩
  | .getrefs => ⟨1, 0x80, 0xFF⟩
  | .getreff => ⟨1, 0x90, 0xFF⟩
  | .replyValue _ _ | .replyPwr _ _ | .replyClr _ _ | .replyLdac _ _ | .replyRefs _ _
  | .replyReff _ _ => ⟨2, 0x0000, 0x0000⟩
  | .abort => ⟨0, 0x0, 0x0⟩

/-- The operation the wire decoder reads from a table row's bits `w`, `nbits` of them, numbered as
spec/opcode_table.json numbers them (bit 0 is the last byte's least significant bit). No read is
pending, so the six `REPLY` rows, whose bits carry no tag, give nothing; nor do the two rows without
a frame (log entry 7). -/
def decodeTableWord (nbits w : Nat) : Option Instr :=
  if nbits % 8 = 0 ∧ w < 2 ^ nbits then
    match decode .none (frameBytes (nbits / 8) w) with
    | .ok i => some i
    | .error _ => none
  else none

end Sys2Proof
end

