-- ==== Sys2Proof/Machine/State.lean ====
section
/-! DEFINITION. The state of RC, what its response port carries, and the reasons a step can stop. RC has
no memory, no register file, no program counter and no flags (R13, R14, R15, R19). -/

namespace Sys2Proof.Machine

/-- A 3-byte write frame W3, in transmit order (R8, R21). -/
structure WriteFrame where
  byte0 : Byte
  byte1 : Byte
  byte2 : Byte
  deriving DecidableEq, Repr

/-- The bytes of a write frame in the order they are handed to the transport (R21). -/
def WriteFrame.bytes (f : WriteFrame) : List Byte := [f.byte0, f.byte1, f.byte2]

/-- The decoded fields of a reply, by class (R38, R81 to R86). `field` is the raw field; a mode is
absent where the raw field names no member of its type (R80, decision D14). -/
inductive Decoded where
  | value (code : DacCode)
  | power (field : BitVec 3) (mode : Option PowerMode) (mask : Mask)
  | clear (field : BitVec 2) (mode : Option ClearCode)
  | ldac (mask : Mask)
  | refStatic (field : BitVec 1) (mode : ReferenceStaticMode)
  | refFlexi (field : BitVec 3) (mode : Option ReferenceFlexiMode)
  deriving DecidableEq, Repr

/-- What the response port carries in one step (R7, R39). -/
inductive Response where
  /-- no response: before the first event, in reset, and in `ABORT` (R88, R100) -/
  | silent
  /-- `done`: `err = ERR_OK`, no frame -/
  | done
  /-- `emit3`: a write frame -/
  | write (f : WriteFrame)
  /-- `emit1`: a select frame -/
  | select (b0 : Byte)
  /-- `raise`: an error and no frame (R94) -/
  | error (k : ErrorKind)
  /-- `result`: the fields of a reply (R80) -/
  | reply (d : Decoded)
  deriving DecidableEq, Repr

/-- Reasons to stop with a fault: none. RC's errors are responses, after which it goes on (R94, R95),
and RC has no halt state (R103). -/
inductive Fault where
  deriving DecidableEq, Repr

/-- Reasons for which RC has no step (R106: neither a response nor a state change). All are safe: the
model says nothing of what follows. -/
inductive Refusal where
  /-- Raised by `exec` for an operation without a meaning; none is left. Safe. -/
  | notModelled (mnemonic : String)
  /-- Raised by `step` when the host presents no event (R97, R103). Safe. -/
  | noEvent
  /-- Raised for a request while a read is pending (R106). Safe. -/
  | readPending
  /-- Raised for a reply while no read is pending (R106). Safe. -/
  | noReadPending
  /-- Raised by `step` for an event that names no operation: an `opt` value outside its operation's
  list (R47). Safe. -/
  | undecoded (e : PortError)
  /-- Raised by the meaning of a `WRITE` row while `WUM` selects another of the three rows (table
  "condition", R52). `step` never runs such a row. Safe. -/
  | otherWriteMode
  /-- Raised by the meaning of a `REPLY` row while `RSEL` selects another of the six rows (table
  "condition", R80). `step` never runs such a row. Safe. -/
  | otherReadClass
  deriving DecidableEq, Repr

/-- The whole architectural state of RC is `wum` and `rsel` (spec/10_state.md section 1). `resp` and
`inbox` are the model's own: the two ports, seen from a step that has no other argument (log
entries 2 and 3). -/
structure State where
  /-- `WUM`, the write-update mode register (R10) -/
  wum : WriteUpdateMode
  /-- `RSEL`, the pending-read latch (R11) -/
  rsel : ReadClass
  /-- the model's own: what the response port carried in the last step -/
  resp : Response
  /-- the model's own: the events the host will present, the next first -/
  inbox : List Event
  deriving DecidableEq, Repr

/-- RC right after reset (R100): no read pending, the write mode at the open `WUM_RESET`, no response,
and no event presented. -/
def State.reset : State where
  wum := Config.rc.wumReset
  rsel := .none
  resp := .silent
  inbox := []

/-- `WUM <- m`. -/
def State.setMode (m : WriteUpdateMode) (s : State) : State := { s with wum := m }

/-- `RSEL <- cls`. -/
def State.latch (cls : ReadClass) (s : State) : State := { s with rsel := cls }

/-- The response port carries `r` in this step. -/
def State.respond (r : Response) (s : State) : State := { s with resp := r }

/-- The events still to come are `evs`. -/
def State.present (evs : List Event) (s : State) : State := { s with inbox := evs }

end Sys2Proof.Machine
end

