-- ==== Sys2Proof/Machine/Flags.lean ====
section
/-! DEFINITION. RC has no flag (R15). Its two status outputs, `err` and `valid`, and the other fields of
the response port (R39) are read here off what the port carries in one step. A field that means nothing
in a step is absent. -/

namespace Sys2Proof.Machine

/-- The raw mode field in the port's 3 bits, where the class has one (R39, R80). -/
def Decoded.modeField : Decoded → Option (BitVec 3)
  | .value _ => none
  | .power field _ _ => some field
  | .clear field _ => some (field.setWidth 3)
  | .ldac _ => none
  | .refStatic field _ => some (field.setWidth 3)
  | .refFlexi field _ => some field

/-- `valid`: 0 exactly where the raw field names no member of its type (R80 to R86, D14). -/
def Decoded.valid : Decoded → Bool
  | .value _ => true
  | .power _ mode _ => mode.isSome
  | .clear _ mode => mode.isSome
  | .ldac _ => true
  | .refStatic _ _ => true
  | .refFlexi _ mode => mode.isSome

/-- The mask field, where the class has one (R82, R84). -/
def Decoded.maskField : Decoded → Option Mask
  | .power _ _ mask => some mask
  | .ldac mask => some mask
  | .value _ | .clear _ _ | .refStatic _ _ | .refFlexi _ _ => none

/-- The value field, where the class has one (R81). -/
def Decoded.valueField : Decoded → Option DacCode
  | .value code => some code
  | .power _ _ _ | .clear _ _ | .ldac _ | .refStatic _ _ | .refFlexi _ _ => none

/-- `err` of the response to a request (R39, R90). -/
def Response.err (c : Config) : Response → Option (BitVec 2)
  | .done | .write _ | .select _ => some c.errOk
  | .error k => some (c.errCode k)
  | .silent | .reply _ => none

/-- The frame bytes on the port, in transmit order: `tx[0..tx_len-1]` (R21, R39). -/
def Response.tx : Response → List Byte
  | .write f => f.bytes
  | .select b0 => [b0]
  | .silent | .done | .error _ | .reply _ => []

/-- `tx_len` of the response to a request: 0, 1 or 3 (R23, R39). -/
def Response.txLen : Response → Option (BitVec 2)
  | .done | .error _ => some 0
  | .select _ => some 1
  | .write _ => some 3
  | .silent | .reply _ => none

/-- The fields of a reply, in the step of a `REPLY` (R80). -/
def Response.decoded : Response → Option Decoded
  | .reply d => some d
  | .silent | .done | .write _ | .select _ | .error _ => none

end Sys2Proof.Machine
end

