-- ==== Sys2Proof/Machine/Operands.lean ====
section
/-! DEFINITION. The pure codec: the encoders and decoders of spec/40_value_ops.md R51,
spec/41_control_ops.md and spec/42_readback_ops.md R77, R81 to R86, as functions of the configuration
and the operands that read no state (C8). Shifts and ORs are on naturals, narrowed where the spec
narrows (R6). -/

namespace Sys2Proof.Machine

/-! ## Frames -/

/-- `(opc << 4) | ch`, the first byte of every frame (R31, R32, R77). -/
def commandByte {w : Nat} (opc : Nibble) (ch : BitVec w) : Byte := narrow (opc.toNat <<< 4 ||| ch.toNat)

/-- The frame of a global operation: channel nibble 0 (R31, R34). -/
def globalFrame (opc : Nibble) (b1 b2 : Byte) : WriteFrame := ⟨commandByte opc (0 : Nibble), b1, b2⟩

/-- `code >> 4`, the more significant payload byte of a value write (R33). -/
def codeHigh {w : Nat} (code : BitVec w) : Byte := narrow (code.toNat >>> 4)

/-- `(code << 4) & 0xFF`, the less significant payload byte of a value write (R33). -/
def codeLow {w : Nat} (code : BitVec w) : Byte := narrow (code.toNat <<< 4)

/-- `EncValue(ch, mode, code)` (R51), for operands of the configuration's port widths: the value is checked
first, then the channel. -/
def encValue (c : Config) (ch : BitVec c.chPortW) (mode : WriteUpdateMode) (code : BitVec c.codePortW) :
    Except ErrorKind WriteFrame :=
  if code.toNat > c.codeMax then .error .invalidValue
  else if ch.toNat = c.chAll.toNat ∧ mode ≠ .wuall then .error .invalidChannel
  else if ch.toNat ≠ c.chAll.toNat ∧ ch.toNat > c.nch - 1 then .error .invalidChannel
  else .ok ⟨commandByte (c.writeOp mode) ch, codeHigh code, codeLow code⟩

/-- The frame of `UPDATE`: no channel, no payload (R54). -/
def encUpdate (c : Config) : WriteFrame := globalFrame c.opUpd 0 0

/-- `field = mask << 5` of the power frame (R36, R60). -/
def powerField (mask : Mask) : Nat := mask.toNat <<< 5

/-- The frame of `POWER` by the source's exact bit law (R36, R60, C1). -/
def encPower (c : Config) (pm : PowerMode) (mask : Mask) : WriteFrame :=
  globalFrame c.opPwr
    (narrow (powerField mask >>> 8 ||| (c.pmCode pm).toNat <<< c.pmShift))
    (narrow (powerField mask))

/-- The frame of `CLRCODE` (R61, C7). -/
def encClearCode (c : Config) (cc : ClearCode) : WriteFrame :=
  globalFrame c.opClr 0 (narrow ((c.ccCode cc).toNat <<< 4))

/-- The frame of `LDACMASK`: the mask whole in `byte1` (R62). -/
def encLdacMask (c : Config) (mask : Mask) : WriteFrame := globalFrame c.opLdac mask 0

/-- The frame of `SWRESET` (R64, C6). -/
def encReset (c : Config) (rm : ResetMode) : WriteFrame := globalFrame c.opRst (c.rstByte rm) 0

/-- The bit that means `on` or `off` in the static reference register (R4 `REFS_ON`, D10). -/
def refStaticBit (c : Config) : ReferenceStaticMode → BitVec 1
  | .on => c.refsOn
  | .off => ~~~c.refsOn

/-- The frame of `REFSTATIC`: the bit at `byte2[4]` (R65). -/
def encRefStatic (c : Config) (m : ReferenceStaticMode) : WriteFrame :=
  globalFrame c.opRefs 0 (narrow ((refStaticBit c m).toNat <<< 4))

/-- The frame of `REFFLEXI` (R66). -/
def encRefFlexi (c : Config) (f : ReferenceFlexiMode) : WriteFrame := globalFrame c.opReff (c.flexi f) 0

/-- `EncSelect(opc, ch)` for a per-channel register: ordinals only (R77). -/
def encSelectChannel (c : Config) (opc : Nibble) (ch : BitVec c.chPortW) : Except ErrorKind Byte :=
  if ch.toNat > c.nch - 1 then .error .invalidChannel else .ok (commandByte opc ch)

/-- `EncSelect(opc)` for a global register (R77). -/
def encSelectGlobal (opc : Nibble) : Byte := commandByte opc (0 : Nibble)

/-! ## Replies -/

/-- The member of an enumerated type whose code is the raw field, if there is one (D14: never some
member for a field that names none). -/
def memberOf {α : Type} (members : List α) (code : α → Nat) (field : Nat) : Option α :=
  members.find? fun m => code m == field

/-- Class `value`: `(rx0 << 4) | (rx1 >> 4)`, 12 bits (R81). -/
def decodeValue (rx0 rx1 : Byte) : Decoded :=
  .value (BitVec.ofNat 12 (rx0.toNat <<< 4 ||| rx1.toNat >>> 4))

/-- Class `pwr`: the mode from `rx0 >> PWR_RD_SHIFT`, the mask from `rx1` whole (R82, C2, C9). -/
def decodePower (c : Config) (rx0 rx1 : Byte) : Decoded :=
  let field := rx0.toNat >>> c.pwrRdShift
  .power (BitVec.ofNat 3 field) (memberOf PowerMode.members (fun m => (c.pmCode m).toNat) field) rx1

/-- Class `clr`: `(rx1 >> CLR_RD_SHIFT) & 0x3` (R83). -/
def decodeClear (c : Config) (rx1 : Byte) : Decoded :=
  let field := rx1.toNat >>> c.clrRdShift &&& 0x3
  .clear (BitVec.ofNat 2 field) (memberOf ClearCode.members (fun m => (c.ccCode m).toNat) field)

/-- Class `ldac`: all of `rx1` (R84, C3). -/
def decodeLdac (rx1 : Byte) : Decoded := .ldac rx1

/-- Class `refs`: `(rx1 >> REFS_RD_SHIFT) & 0x1` (R85). -/
def decodeRefStatic (c : Config) (rx1 : Byte) : Decoded :=
  let field := BitVec.ofNat 1 (rx1.toNat >>> c.refsRdShift &&& 0x1)
  .refStatic field (if field = c.refsOn then .on else .off)

/-- The 3-bit field of a flexi mode: bits 6:4 of its frame byte (R66). -/
def flexiField (c : Config) (f : ReferenceFlexiMode) : Nat := (c.flexi f).toNat >>> 4 &&& 0x7

/-- Class `reff`: `(rx0 >> REFF_RD_SHIFT) & 0x7` (R86, C4). -/
def decodeRefFlexi (c : Config) (rx0 : Byte) : Decoded :=
  let field := rx0.toNat >>> c.reffRdShift &&& 0x7
  .refFlexi (BitVec.ofNat 3 field) (memberOf ReferenceFlexiMode.members (flexiField c) field)

end Sys2Proof.Machine
end

