-- ==== Sys2Proof/Machine/Ops.lean ====
section
/-! DEFINITION. The named operations every meaning is made of: the gate of R106, the primitives of R7
(`emit3`, `emit1`, `done`, `raise`, `result`), and reset. RC reads and writes no memory (R20). -/

namespace Sys2Proof.Machine

/-- What one step answers. -/
abbrev Answer := Host.Outcome State Fault Refusal

/-- The gate of every request: while a read is pending it is refused, before any check (R93, R106). -/
def asRequest (s : State) (body : Answer) : Answer :=
  if s.rsel = .none then body else .refused .readPending

/-- `done`: no frame, `err = ERR_OK` (R7). -/
def done (s : State) : Answer := .next (s.respond .done)

/-- `emit3`: a write frame (R7). -/
def emit3 (f : WriteFrame) (s : State) : Answer := .next (s.respond (.write f))

/-- `emit1` with its `RSEL <- cls`: a select frame, and the class its reply will be decoded by (R7, R70). -/
def emit1 (b0 : Byte) (cls : ReadClass) (s : State) : Answer :=
  .next ((s.latch cls).respond (.select b0))

/-- `raise`, the entry of both errors: the response is the kind and no frame, and neither state element
changes (R94). Nothing is saved and there is no return (R95). -/
def raise (k : ErrorKind) (s : State) : Answer := .next (s.respond (.error k))

/-- `WUM <- m; done` (R50). -/
def setWriteMode (m : WriteUpdateMode) (s : State) : Answer := done (s.setMode m)

/-- `WRITE ch, code` for the table row of mode `row` (R52): the command nibble is that of `WUM` as it is
at this step (R104). The row is `WRITE` only while `WUM` is its mode. -/
def writeCode (row : WriteUpdateMode) (ch : Nibble) (code : CodeOperand) (s : State) : Answer :=
  asRequest s <|
    if s.wum = row then
      match encValue Config.rc ch s.wum code with
      | .ok f => emit3 f s
      | .error k => raise k s
    else .refused .otherWriteMode

/-- A single-purpose write: the request that emits one frame and can raise nothing (R60 to R66). -/
def writeFrame (f : WriteFrame) (s : State) : Answer := asRequest s (emit3 f s)

/-- The select of a channel's register (R70, R71). -/
def selectChannel (opc ch : Nibble) (s : State) : Answer :=
  asRequest s <|
    match encSelectChannel Config.rc opc ch with
    | .ok b0 => emit1 b0 .value s
    | .error k => raise k s

/-- The select of a global register (R72 to R76). -/
def selectGlobal (opc : Nibble) (cls : ReadClass) (s : State) : Answer :=
  asRequest s (emit1 (encSelectGlobal opc) cls s)

/-- `REPLY` for the table row of class `row` (R80): the result of its decode rule, and `RSEL <- none`
whether or not the result is valid. -/
def takeReply (row : ReadClass) (d : Decoded) (s : State) : Answer :=
  if s.rsel = .none then .refused .noReadPending
  else if s.rsel = row then .next ((s.latch .none).respond (.reply d))
  else .refused .otherReadClass

/-- `RSEL <- none`, with no response (R88). -/
def dropRead (s : State) : Answer := .next ((s.latch .none).respond .silent)

/-- The reset event (R100): the state elements take their reset values and nothing is emitted. The
events the host has still to present are the host's and stay. -/
def takeReset (s : State) : State := State.reset.present s.inbox

/-- The "enabled when" column of R102: the refusal of an event that is not enabled (R106). -/
def notEnabled (s : State) : Event → Option Refusal
  | .request _ => if s.rsel = .none then none else some .readPending
  | .reply _ _ => if s.rsel = .none then some .noReadPending else none
  | .abort => none
  | .reset => none

end Sys2Proof.Machine
end

