-- ==== Sys2Proof/Machine/Control.lean ====
section
/-! DEFINITION. The control operations `POWER`, `CLRCODE`, `LDACMASK`, `SWRESET`, `REFSTATIC` and
`REFFLEXI` (spec/41_control_ops.md). -/

namespace Sys2Proof.Machine

/-- `POWER pm, mask` (R60). -/
def execPower (pm : PowerMode) (mask : Mask) (s : State) : Answer :=
  writeFrame (encPower Config.rc pm mask) s

/-- `CLRCODE cc` (R61). -/
def execClrcode (cc : ClearCode) (s : State) : Answer := writeFrame (encClearCode Config.rc cc) s

/-- `LDACMASK mask` (R62). -/
def execLdacmask (mask : Mask) (s : State) : Answer := writeFrame (encLdacMask Config.rc mask) s

/-- `SWRESET rm`: it resets the device, not RC (R64, D23). -/
def execSwreset (rm : ResetMode) (s : State) : Answer := writeFrame (encReset Config.rc rm) s

/-- `REFSTATIC s` (R65). -/
def execRefstatic (m : ReferenceStaticMode) (s : State) : Answer := writeFrame (encRefStatic Config.rc m) s

/-- `REFFLEXI f` (R66). -/
def execRefflexi (f : ReferenceFlexiMode) (s : State) : Answer := writeFrame (encRefFlexi Config.rc f) s

end Sys2Proof.Machine
end

