-- ==== Sys2Proof/Machine/ReadBack.lean ====
section
/-! DEFINITION. The read-back operations: the seven `GET*`, the six `REPLY` rows and `ABORT`
(spec/42_readback_ops.md). -/

namespace Sys2Proof.Machine

/-- `GETVAL ch` (R70). -/
def execGetval (ch : Nibble) (s : State) : Answer := selectChannel Config.rc.rdOpIn ch s

/-- `GETDAC ch` (R71). -/
def execGetdac (ch : Nibble) (s : State) : Answer := selectChannel Config.rc.rdOpDac ch s

/-- `GETPWR` (R72). -/
def execGetpwr (s : State) : Answer := selectGlobal Config.rc.opPwr .pwr s

/-- `GETCLR` (R73). -/
def execGetclr (s : State) : Answer := selectGlobal Config.rc.opClr .clr s

/-- `GETLDAC` (R74). -/
def execGetldac (s : State) : Answer := selectGlobal Config.rc.opLdac .ldac s

/-- `GETREFS` (R75). -/
def execGetrefs (s : State) : Answer := selectGlobal Config.rc.opRefs .refs s

/-- `GETREFF` (R76). -/
def execGetreff (s : State) : Answer := selectGlobal Config.rc.opReff .reff s

/-- `REPLY rx0, rx1` with `RSEL = value` (R81). -/
def execReplyValue (rx0 rx1 : Byte) (s : State) : Answer := takeReply .value (decodeValue rx0 rx1) s

/-- `REPLY rx0, rx1` with `RSEL = pwr` (R82). -/
def execReplyPwr (rx0 rx1 : Byte) (s : State) : Answer := takeReply .pwr (decodePower Config.rc rx0 rx1) s

/-- `REPLY rx0, rx1` with `RSEL = clr` (R83). -/
def execReplyClr (_rx0 rx1 : Byte) (s : State) : Answer := takeReply .clr (decodeClear Config.rc rx1) s

/-- `REPLY rx0, rx1` with `RSEL = ldac` (R84). -/
def execReplyLdac (_rx0 rx1 : Byte) (s : State) : Answer := takeReply .ldac (decodeLdac rx1) s

/-- `REPLY rx0, rx1` with `RSEL = refs` (R85). -/
def execReplyRefs (_rx0 rx1 : Byte) (s : State) : Answer := takeReply .refs (decodeRefStatic Config.rc rx1) s

/-- `REPLY rx0, rx1` with `RSEL = reff` (R86). -/
def execReplyReff (rx0 _rx1 : Byte) (s : State) : Answer := takeReply .reff (decodeRefFlexi Config.rc rx0) s

/-- `ABORT` (R88). -/
def execAbort (s : State) : Answer := dropRead s

end Sys2Proof.Machine
end

