-- ==== Sys2Proof/Machine/Value.lean ====
section
/-! DEFINITION. The value operations `SETMODE`, `WRITE` (its three rows) and `UPDATE`
(spec/40_value_ops.md). -/

namespace Sys2Proof.Machine

/-- `SETMODE m` (R50). -/
def execSetmode (m : WriteUpdateMode) (s : State) : Answer := asRequest s (setWriteMode m s)

/-- `WRITE ch, code` with `WUM = wo` (R52). -/
def execWriteWo (ch : Nibble) (code : CodeOperand) (s : State) : Answer := writeCode .wo ch code s

/-- `WRITE ch, code` with `WUM = wu1` (R52). -/
def execWriteWu1 (ch : Nibble) (code : CodeOperand) (s : State) : Answer := writeCode .wu1 ch code s

/-- `WRITE ch, code` with `WUM = wuall` (R52). -/
def execWriteWuall (ch : Nibble) (code : CodeOperand) (s : State) : Answer := writeCode .wuall ch code s

/-- `UPDATE ch`: the channel is accepted and ignored (R54, C5). -/
def execUpdate (_ch : Nibble) (s : State) : Answer := writeFrame (encUpdate Config.rc) s

end Sys2Proof.Machine
end

