-- ==== Sys2Proof/Machine/Dispatch.lean ====
section
/-! DEFINITION. exec: one arm per constructor of Instr, each a direct call of its meaning. -/

namespace Sys2Proof.Machine

def exec (i : Instr) (s : State) : Host.Outcome State Fault Refusal :=
  match i with
  | .setmode m => Sys2Proof.Machine.execSetmode m s
  | .writeWo ch code => Sys2Proof.Machine.execWriteWo ch code s
  | .writeWu1 ch code => Sys2Proof.Machine.execWriteWu1 ch code s
  | .writeWuall ch code => Sys2Proof.Machine.execWriteWuall ch code s
  | .update ch => Sys2Proof.Machine.execUpdate ch s
  | .power pm mask => Sys2Proof.Machine.execPower pm mask s
  | .clrcode cc => Sys2Proof.Machine.execClrcode cc s
  | .ldacmask mask => Sys2Proof.Machine.execLdacmask mask s
  | .swreset rm => Sys2Proof.Machine.execSwreset rm s
  | .refstatic m => Sys2Proof.Machine.execRefstatic m s
  | .refflexi f => Sys2Proof.Machine.execRefflexi f s
  | .getval ch => Sys2Proof.Machine.execGetval ch s
  | .getdac ch => Sys2Proof.Machine.execGetdac ch s
  | .getpwr => Sys2Proof.Machine.execGetpwr s
  | .getclr => Sys2Proof.Machine.execGetclr s
  | .getldac => Sys2Proof.Machine.execGetldac s
  | .getrefs => Sys2Proof.Machine.execGetrefs s
  | .getreff => Sys2Proof.Machine.execGetreff s
  | .replyValue rx0 rx1 => Sys2Proof.Machine.execReplyValue rx0 rx1 s
  | .replyPwr rx0 rx1 => Sys2Proof.Machine.execReplyPwr rx0 rx1 s
  | .replyClr rx0 rx1 => Sys2Proof.Machine.execReplyClr rx0 rx1 s
  | .replyLdac rx0 rx1 => Sys2Proof.Machine.execReplyLdac rx0 rx1 s
  | .replyRefs rx0 rx1 => Sys2Proof.Machine.execReplyRefs rx0 rx1 s
  | .replyReff rx0 rx1 => Sys2Proof.Machine.execReplyReff rx0 rx1 s
  | .abort => Sys2Proof.Machine.execAbort s

end Sys2Proof.Machine
end

