-- ==== Sys2Proof/Machine/Cycle.lean ====
section
/-! DEFINITION. The reaction to one event of the host (R102): taking the next event, the enabling check,
the choice of the operation, and reset; and the placing of one operation where the next step takes it. -/

namespace Sys2Proof.Machine

/-- The next event of the host, and the state once it is taken. -/
def fetch (s : State) : Option (Event × State) :=
  match s.inbox with
  | [] => none
  | ev :: rest => some (ev, s.present rest)

/-- RC's step for one event (R102): refused if not enabled (R106), reset by R100, and otherwise the
operation that the event stands for. -/
def perform (ev : Event) (s : State) : Answer :=
  match notEnabled s ev with
  | some r => .refused r
  | none =>
    match ev with
    | .reset => .next (takeReset s)
    | .request _ | .reply _ _ | .abort =>
      match decodeEvent s.wum s.rsel ev with
      | .ok i => exec i s
      | .error e => .refused (.undecoded e)

/-- One step: the host's next event, if it presents one (R97). -/
def advance (s : State) : Answer :=
  match fetch s with
  | none => .refused .noEvent
  | some (ev, s') => perform ev s'

/-- `s` with the event of operation `i` presented next, and with the two state elements at the values
that select its row (log entry 8). -/
def presentNext (i : Instr) (s : State) : State :=
  ((s.setMode (i.rowMode.getD s.wum)).latch (i.rowClass.getD s.rsel)).present (encodeEvent i :: s.inbox)

/-- The class by which a reply presented next is read: that of the read pending, and class `value` where
none is pending, so that the reply has a step (log entry 8). -/
def replyClass (s : State) : ReadClass := if s.rsel = .none then .value else s.rsel

/-- `s` with the operation of a table row's bits presented next. Two bytes are a reply, which `RSEL`
alone says how to read; bits that are no operation present nothing (log entry 8). -/
def presentWord (s : State) (nbits w : Nat) : State :=
  match decodeTableWord nbits w with
  | some i => presentNext i s
  | none =>
    match frameBytes (nbits / 8) w with
    | [rx0, rx1] => (s.latch (replyClass s)).present (.reply rx0 rx1 :: s.inbox)
    | _ => s.present []

end Sys2Proof.Machine
end

