-- ==== Sys2Proof/Machine/Step.lean ====
section
/-! DEFINITION. The step of RC, and where a host's question puts an operation for the next step. -/

namespace Sys2Proof.Machine

/-- One step of RC: its atomic reaction to the host's next event (R26, R102). -/
def step (s : State) : Host.Outcome State Fault Refusal := advance s

/-- `s` with the operation whose table bits are `w` where `step` takes its next operation. -/
def State.withFetchWord (s : State) (nbits w : Nat) : State := presentWord s nbits w

end Sys2Proof.Machine
end

