-- ==== Sys2Proof/Machine/SetAll.lean ====
section
/-! DEFINITION. The pseudo-operation `SETALL` (R56): the host's expansion into eight `WRITE` requests.
It is no operation of RC (R42). -/

namespace Sys2Proof.Machine

/-- The request `WRITE ch, code` (R40). -/
def writeRequest (ch : Nibble) (code : CodeOperand) : Event := .request ⟨1, ch, code, 0, 0⟩

/-- `WRITE` requests for the codes in turn, to ascending channels from `n` on (R56). -/
def writesFrom : Nat → List CodeOperand → List Event
  | _, [] => []
  | n, code :: codes => writeRequest (BitVec.ofNat 4 n) code :: writesFrom (n + 1) codes

/-- `SETALL c0, ..., c7`: all eight codes are checked before any request; then one `WRITE` each, A to H.
A host whose transport fails at the k-th frame makes the first k of these requests only (R56, R108). -/
def setAllRequests (c : Config) (codes : Vector CodeOperand 8) : Except ErrorKind (List Event) :=
  if codes.toList.all fun code => decide (code.toNat ≤ c.codeMax) then .ok (writesFrom 0 codes.toList)
  else .error .invalidValue

end Sys2Proof.Machine
end

