-- ==== Sys2Proof/Safety.lean ====
section
/-! DEFINITION. What a safe run is, in the terms the statements use: a host that keeps the read
discipline (R105), what RC may never emit (R46), and how the response port and the pending-read latch
hang together (R11). -/

namespace Sys2Proof

/-! ## The host's duties -/

/-- The `opt` value is in the list of the request's operation (R40, R47). -/
def Request.optListed (r : Request) : Bool :=
  match r.op.toNat with
  | 0 => decide (r.opt.toNat ≤ 2)
  | 6 => decide (r.opt.toNat ≤ 2)
  | 7 => decide (r.opt.toNat ≤ 1)
  | _ => true

/-- The class of the read that a request leaves pending: only the seven `GET*` that succeed leave one
(R11, R70 to R76). -/
def Request.opensRead (r : Request) : ReadClass :=
  match r.op.toNat with
  | 9 => if isOrdinal r.ch then .value else .none
  | 10 => if isOrdinal r.ch then .value else .none
  | 11 => .pwr
  | 12 => .clr
  | 13 => .ldac
  | 14 => .refs
  | 15 => .reff
  | _ => .none

/-- Whether the host's duties allow an event while the read `rsel` is pending, and the read pending
after it (R105, R111): no request before the pending read is answered or abandoned, and a reply only
for a pending read. -/
def Event.allowed (rsel : ReadClass) : Event → Option ReadClass
  | .request r => if rsel = .none ∧ r.optListed then some r.opensRead else none
  | .reply _ _ => if rsel = .none then none else some .none
  | .abort => some .none
  | .reset => some .none

/-- A sequence of events that keeps the host's duties throughout (R105). -/
def disciplined : ReadClass → List Event → Bool
  | _, [] => true
  | rsel, ev :: evs =>
    match Event.allowed rsel ev with
    | some rsel' => disciplined rsel' evs
    | none => false

/-! ## What RC emits -/

/-- The class whose select frame an operation emits (R70 to R76). -/
def Instr.selectsClass : Instr → ReadClass
  | .getval _ => .value
  | .getdac _ => .value
  | .getpwr => .pwr
  | .getclr => .clr
  | .getldac => .ldac
  | .getrefs => .refs
  | .getreff => .reff
  | .setmode _ | .writeWo _ _ | .writeWu1 _ _ | .writeWuall _ _ | .update _ | .power _ _ | .clrcode _
  | .ldacmask _ | .swreset _ | .refstatic _ | .refflexi _ | .replyValue _ _ | .replyPwr _ _
  | .replyClr _ _ | .replyLdac _ _ | .replyRefs _ _ | .replyReff _ _ | .abort => .none

/-- The register class that a select byte addresses, by the command-space map of R24. -/
def selectByteClass (b0 : Byte) : ReadClass :=
  match decodeSelectFrame b0 with
  | .ok i => Instr.selectsClass i
  | .error _ => .none

/-- A frame uses none of the encodings that R46 reserves, for a frame emitted while `WUM = wum`. The bytes
`RSTBYTE` of the reset modes are an argument (R64, D9). -/
def unreserved (rst : ResetMode → Byte) (wum : WriteUpdateMode) : List Byte → Bool
  | [] => true
  | [b0] =>
    let cmd := (commandNibble b0).toNat
    let chn := (channelNibble b0).toNat
    decide (cmd ∈ [0, 1, 4, 5, 6, 8, 9]) && decide (chn ≤ 7) && (decide (chn = 0) || decide (cmd ≤ 1))
  | [b0, b1, b2] =>
    let cmd := (commandNibble b0).toNat
    let chn := (channelNibble b0).toNat
    decide (cmd ≤ 9)
      && (decide (chn ≤ 7) || (decide (chn = 15) && decide (cmd = 2) && decide (wum = .wuall)))
      && (decide (chn = 0) || decide (cmd ∈ [0, 2, 3]))
      && (decide (cmd ≠ 7) || (ResetMode.ofByte rst b1).isSome)
      && (decide (cmd ≠ 9) || decide ((b1.extractLsb' 4 3).toNat ∈ [4, 5, 6, 0]))
      -- the bits that R41 shows as 0
      && (decide (cmd ∉ [0, 2, 3]) || decide (b2.extractLsb' 0 4 = 0))
      && (decide (cmd ≠ 1) || (decide (b1 = 0) && decide (b2 = 0)))
      && (decide (cmd ≠ 4) || (decide (b1.extractLsb' 7 1 = 0) && decide (b2.extractLsb' 0 5 = 0)))
      && (decide (cmd ≠ 5) || (decide (b1 = 0) && decide (b2 &&& 0xCF = 0)))
      && (decide (cmd ∉ [6, 7, 9]) || decide (b2 = 0))
      && (decide (cmd ≠ 8) || (decide (b1 = 0) && decide (b2 &&& 0xEF = 0)))
      && (decide (cmd ≠ 9) || decide (b1 &&& 0x8F = 0))
  | _ => false

end Sys2Proof

namespace Sys2Proof.Machine

/-- No read is in flight, and the host may stop here (R103). -/
abbrev State.quiescent (s : State) : Bool := decide (s.rsel = .none)

/-- The response port and the latch agree (R11): a read is pending exactly if the last step emitted a
select frame, and then it is of the class that the frame's byte addresses. -/
def State.coherent (s : State) : Bool :=
  match s.resp with
  | .select b0 => decide (s.rsel ≠ .none) && decide (selectByteClass b0 = s.rsel)
  | .silent | .done | .write _ | .error _ | .reply _ => decide (s.rsel = .none)

/-- The decoded fields of a reply in each class: the case table of R80. -/
def decodedAs (c : Config) (cls : ReadClass) (rx0 rx1 : Byte) : Option Decoded :=
  match cls with
  | .none => none
  | .value => some (decodeValue rx0 rx1)
  | .pwr => some (decodePower c rx0 rx1)
  | .clr => some (decodeClear c rx1)
  | .ldac => some (decodeLdac rx1)
  | .refs => some (decodeRefStatic c rx1)
  | .reff => some (decodeRefFlexi c rx0)

/-- An answer with the write mode replaced in its next state, if it has one. -/
def answerWithMode (m : WriteUpdateMode) : Answer → Answer
  | .next s => .next (s.setMode m)
  | .fault f => .fault f
  | .refused r => .refused r

end Sys2Proof.Machine
end

