-- ==== Sys2Proof/Certificates/Slice0/Obligations.lean ====
section
/-! DEFINITION. The statements for the provers: def Obligations.<Name> : Prop. Every equation between an
answer and a next state `{ s with … }` is also the operation's frame: the fields it does not name are
unchanged. RC has no memory, so no statement speaks of one. -/

open Sys2Proof Sys2Proof.Machine

/-! ## Reset (R100) -/

/-- The reset event, at any time and with a read pending too, leaves no read pending, the write mode at
`WUM_RESET` and no response. Decisions D18 and D19 of spec/92_eei_decisions.md. -/
def Obligations.ResetEventRestoresResetState : Prop :=
  ∀ (s : State) (rest : List Event), s.inbox = .reset :: rest →
    step s = .next { wum := Config.rc.wumReset, rsel := .none, resp := .silent, inbox := rest }

/-- The state after reset agrees with `State.coherent`. -/
def Obligations.ResetStateIsCoherent : Prop := State.reset.coherent = true

/-! ## Encoding: the wire and the request port -/

/-- Words written out from R41 and numbered as the opcode table numbers them, one per family, decode to
the operations they stand for. -/
def Obligations.TableWordsDecodeToTheirOperations : Prop :=
  decodeTableWord 24 0b0000_0011_0000_0001_0000_0000 = some (.writeWo 3 16) ∧
  decodeTableWord 24 0b0001_0000_0000_0000_0000_0000 = some (.update 0) ∧
  decodeTableWord 24 0b0100_0000_0101_0101_0000_0000 = some (.power .pd100k 0xA8) ∧
  decodeTableWord 24 0b1001_0000_0101_0000_0000_0000 = some (.refflexi .on) ∧
  decodeTableWord 8 0b0001_0111 = some (.getdac 7) ∧
  decodeTableWord 24 0b1010_0000_0000_0000_0000_0000 = none

/-- Decoding what is encoded: every operation that has a frame, with every operand its encoding admits,
comes back from its bytes, `UPDATE` without the channel that its frame does not carry (R41, R54). It holds
for any three reset bytes that are distinct, the only thing R64 and C6 let a model rely on (decision D9). -/
def Obligations.WireDecodesWhatItEncodes : Prop :=
  ∀ (rst : ResetMode → Byte) (i : Instr), (∀ a b : ResetMode, rst a = rst b → a = b) →
    i.wellFormed = true → i.hasFrame = true →
    decodeWith rst (i.rowClass.getD .none) (encodeWith rst i) = .ok i.canonical

/-- Encoding what is decoded: a byte sequence the wire decoder accepts is the encoding of the operation
it gives, and that operation is well formed. So no two byte sequences stand for one operation, and
nothing outside R41 is accepted (R46). It holds for any reset bytes (decision D9). -/
def Obligations.WireAcceptsOnlyEncodings : Prop :=
  ∀ (rst : ResetMode → Byte) (rsel : ReadClass) (bytes : List Byte) (i : Instr),
    decodeWith rst rsel bytes = .ok i → encodeWith rst i = bytes ∧ i.wellFormed = true

/-- The encoding of every well-formed operation has the length of its row of the opcode table and agrees
with the row's match under its mask, for any reset bytes (decision D9). -/
def Obligations.EncodingMatchesItsTableRow : Prop :=
  ∀ (rst : ResetMode → Byte) (i : Instr), i.wellFormed = true →
    (encodeWith rst i).length = i.tableRow.bytes ∧
    frameNumber (encodeWith rst i) &&& i.tableRow.mask = i.tableRow.pattern

/-- Operands that a request's operation does not name are ignored (R39, the operands of R40). -/
def Obligations.UnnamedOperandsAreIgnored : Prop :=
  ∀ (wum : WriteUpdateMode) (r r' : Request), r.op = r'.op →
    (r.op.toNat ∈ [1, 2, 9, 10] → r.ch = r'.ch) → (r.op.toNat = 1 → r.code = r'.code) →
    (r.op.toNat ∈ [3, 5] → r.mask = r'.mask) → (r.op.toNat ∈ [0, 3, 4, 6, 7, 8] → r.opt = r'.opt) →
    decodeRequest wum r = decodeRequest wum r'

/-- A request is refused for its `opt` value exactly in the four cases R47 lists: `SETMODE` 3,
`SWRESET` 3, `REFSTATIC` 2 and 3 (decision D2). -/
def Obligations.UnlistedOptionsAreRefused : Prop :=
  ∀ (s : State) (r : Request) (rest : List Event), s.rsel = .none → s.inbox = .request r :: rest →
    (step s = .refused (.undecoded .unlistedOption) ↔
      (r.op = 0 ∧ r.opt = 3) ∨ (r.op = 6 ∧ r.opt = 3) ∨ (r.op = 7 ∧ (r.opt = 2 ∨ r.opt = 3)))

/-- The port codes of the two state elements are those of R10 and R11, in order; so they are distinct and
never the reserved ones: 3 for `WUM`, 7 for `RSEL`. The codes are decisions D2 and D19. -/
def Obligations.PortCodesAreDistinctAndUnreserved : Prop :=
  (WriteUpdateMode.wo.portCode = 0 ∧ WriteUpdateMode.wu1.portCode = 1 ∧ WriteUpdateMode.wuall.portCode = 2) ∧
  (ReadClass.none.portCode = 0 ∧ ReadClass.value.portCode = 1 ∧ ReadClass.pwr.portCode = 2 ∧
    ReadClass.clr.portCode = 3 ∧ ReadClass.ldac.portCode = 4 ∧ ReadClass.refs.portCode = 5 ∧
    ReadClass.reff.portCode = 6) ∧
  (∀ m m' : WriteUpdateMode, m.portCode = m'.portCode → m = m') ∧ (∀ m : WriteUpdateMode, m.portCode ≠ 3) ∧
  (∀ c c' : ReadClass, c.portCode = c'.portCode → c = c') ∧ (∀ c : ReadClass, c.portCode ≠ 7)

/-! ## The step relation (R102) -/

/-- A step runs the operation that the host's next event stands for, on the state with that event taken.
It holds for every event that decodes, enabled or not: an operation that is not enabled is refused by its
own meaning too. -/
def Obligations.StepRunsTheDecodedOperation : Prop :=
  ∀ (s : State) (ev : Event) (rest : List Event) (i : Instr), s.inbox = ev :: rest →
    decodeEvent s.wum s.rsel ev = .ok i → step s = exec i { s with inbox := rest }

/-- A step answers a next state exactly where the event is enabled (R102) and its `opt` value listed
(R47); it takes the one event and leaves the pending read that the event leaves. Otherwise it is
refused. -/
def Obligations.StepCompletesExactlyWhenAllowed : Prop :=
  ∀ (s : State) (ev : Event) (rest : List Event), s.inbox = ev :: rest →
    (∀ rsel' : ReadClass, Event.allowed s.rsel ev = some rsel' →
      ∃ t : State, step s = .next t ∧ t.rsel = rsel' ∧ t.inbox = rest) ∧
    (Event.allowed s.rsel ev = none → ∃ r : Refusal, step s = .refused r)

/-- One transaction in flight: while a read is pending every request is refused, whatever its operation
and operands, and while none is pending every reply is (R106, decision D19). -/
def Obligations.OverlappingTransactionsAreRefused : Prop :=
  ∀ (s : State) (rest : List Event),
    (∀ r : Request, s.inbox = .request r :: rest → s.rsel ≠ .none → step s = .refused .readPending) ∧
    (∀ rx0 rx1 : Byte, s.inbox = .reply rx0 rx1 :: rest → s.rsel = .none → step s = .refused .noReadPending)

/-- A host that keeps its duties never meets a refusal: from every state, every run through its events
completes, however far (R105, R106). -/
def Obligations.DisciplinedHostIsNeverRefused : Prop :=
  ∀ s : State, disciplined s.rsel s.inbox = true → ∀ k : Nat, k ≤ s.inbox.length →
    ∃ t : State, Host.Core.run core k s = .next t ∧ t.inbox = s.inbox.drop k

/-- Whatever the state before it, a step that completes leaves the latch and the response port in
agreement: a read is pending exactly if this step emitted a select frame, and it is of the class that the
emitted byte addresses (R11). -/
def Obligations.StepKeepsPortAndLatchCoherent : Prop :=
  ∀ s t : State, step s = .next t → t.coherent = true

/-- `WUM` is written only by `SETMODE` and by reset (R10). -/
def Obligations.WriteModeChangesOnlyBySetmodeOrReset : Prop :=
  ∀ s t : State, step s = .next t → t.wum ≠ s.wum →
    ∃ (ev : Event) (rest : List Event), s.inbox = ev :: rest ∧
      (decodeEvent s.wum s.rsel ev = .ok (.setmode t.wum) ∨ (ev = .reset ∧ t.wum = Config.rc.wumReset))

/-- `WUM` is read only by `WRITE`: any other operation answers the same in every write mode, but for
`WUM` itself, and only `SETMODE` then replaces it (R10, R101). -/
def Obligations.WriteModeIsReadOnlyByWrite : Prop :=
  ∀ (i : Instr) (m : WriteUpdateMode) (s : State), i.rowMode = none → (∀ m' : WriteUpdateMode, i ≠ .setmode m') →
    exec i { s with wum := m } = answerWithMode m (exec i s)

/-- The model's response port is a port and no state: nothing that a step does depends on what the last
step responded (R12). The field is the model's own (log entry 3). -/
def Obligations.NoStepReadsTheLastResponse : Prop :=
  ∀ (s : State) (r : Response), step { s with resp := r } = step s

/-! ## Frames emitted (R23, R41, R46) -/

/-- Every well-formed operation whose row is selected completes, and its step puts on the port exactly
its bytes by the patterns of R41, a reply and the operations without a frame none: the pseudocode of the
operation rules and the pattern table agree. The patterns hold at the parameter values of decisions D4 to
D12. -/
def Obligations.EmittedBytesAreTheTableEncoding : Prop :=
  ∀ (i : Instr) (s : State), i.wellFormed = true → i.selected s.wum s.rsel = true →
    ∃ t : State, exec i s = .next t ∧ t.resp.tx = if i.isReply then [] else encode i

/-- Whatever the state and the event, a step emits no encoding that R46 reserves (decision D25). -/
def Obligations.NoReservedEncodingIsEmitted : Prop :=
  ∀ s t : State, step s = .next t →
    unreserved Config.rc.rstByte s.wum t.resp.tx = true

/-- `tx_len` is 0, 1 or 3, and it is the number of frame bytes (R23). -/
def Obligations.FrameLengthIsZeroOneOrThree : Prop :=
  ∀ (r : Response) (n : BitVec 2), r.txLen = some n → n.toNat = r.tx.length ∧ n.toNat ∈ [0, 1, 3]

/-! ## Errors (R90 to R95) -/

/-- `InvalidValue` is raised by `WRITE` for a code above 4095, and by no other operation; the
pre-validation of `SETALL` returns the same kind (R91). That a code above 4095 is reported also where the
channel is wrong is decision D15 (log entry 15), that the host expands `SETALL` decision D24 (log entry 20). -/
def Obligations.InvalidValueExactlyForCodesAboveRange : Prop :=
  (∀ (i : Instr) (s t : State), exec i s = .next t →
    (t.resp = .error .invalidValue ↔
      ∃ (m : WriteUpdateMode) (ch : Nibble) (code : CodeOperand), i = writeRow m ch code ∧ 4095 < code.toNat)) ∧
  ∀ (codes : Vector CodeOperand 8) (k : ErrorKind), setAllRequests Config.rc codes = .error k ↔
    k = .invalidValue ∧ ∃ n : Fin 8, 4095 < codes[n].toNat

/-- `InvalidChannel` is raised exactly by a `WRITE` whose code is in range and whose channel is 8 to 14,
or `all` outside `wuall`, and by `GETVAL` and `GETDAC` for a channel that is no ordinal (R92). That the
value is checked first is decision D15, the check of the getters D17. -/
def Obligations.InvalidChannelExactlyOutsideTheValidSet : Prop :=
  ∀ (i : Instr) (s t : State), exec i s = .next t →
    (t.resp = .error .invalidChannel ↔
      (∃ (m : WriteUpdateMode) (ch : Nibble) (code : CodeOperand), i = writeRow m ch code ∧
        code.toNat ≤ 4095 ∧ 8 ≤ ch.toNat ∧ ¬(ch = Config.rc.chAll ∧ m = .wuall)) ∨
      (∃ ch : Nibble, 8 ≤ ch.toNat ∧ (i = .getval ch ∨ i = .getdac ch)))

/-- An error has no effect: its step leaves the whole state as it was but for the response, emits no byte,
and was taken with no read pending (R94, decision D20). Its code on `err` is 1 or 2 (R90, decision D15). -/
def Obligations.ErrorsHaveNoEffect : Prop :=
  ∀ (i : Instr) (s t : State) (k : ErrorKind), exec i s = .next t → t.resp = .error k →
    s.rsel = .none ∧ t = { s with resp := .error k } ∧ t.resp.tx = [] ∧
      t.resp.err Config.rc = some (Config.rc.errCode k) ∧
      Config.rc.errCode k = (match k with | .invalidValue => 1 | .invalidChannel => 2)

/-- Where its row is selected, an operation raises an error exactly if its operands are not well formed:
the checks of R51 and R77 are the operand ranges, and every other operation raises none. -/
def Obligations.ErrorsExactlyForIllFormedOperands : Prop :=
  ∀ (i : Instr) (s : State), i.selected s.wum s.rsel = true →
    ((∃ k : ErrorKind, exec i s = .next { s with resp := .error k }) ↔ i.wellFormed = false)

/-- Both causes at once report `InvalidValue`, for every configuration and its port widths: the value check comes first (R93,
decision D15). -/
def Obligations.ValueCheckPrecedesChannelCheck : Prop :=
  ∀ (c : Config) (ch : BitVec c.chPortW) (m : WriteUpdateMode) (code : BitVec c.codePortW),
    c.codeMax < code.toNat → encValue c ch m code = .error .invalidValue

/-! ## Value operations (R50 to R56) -/

/-- `SETMODE m`, request `op` 0 with `opt` 0 `wo`, 1 `wu1` or 2 `wuall`, sets the write mode and emits
nothing (R50). The request codes, of R40, are decision D2 (log entry 9). -/
def Obligations.SetmodeSetsTheWriteMode : Prop :=
  (∀ (m : WriteUpdateMode) (s : State), s.rsel = .none →
    ∃ t : State, exec (.setmode m) s = .next t ∧ t = { s with wum := m, resp := .done } ∧
      t.resp.err Config.rc = some Config.rc.errOk ∧ t.resp.txLen = some 0 ∧ t.resp.tx = []) ∧
  ∀ (wum : WriteUpdateMode) (r : Request), r.op = 0 →
    (r.opt = 0 → decodeRequest wum r = .ok (.setmode .wo)) ∧
    (r.opt = 1 → decodeRequest wum r = .ok (.setmode .wu1)) ∧
    (r.opt = 2 → decodeRequest wum r = .ok (.setmode .wuall))

/-- `WRITE` in mode `wo`, code and channel in range, emits the buffered write frame (R52). The command
nibble is the parameter `OP_WO` (decision D5), the request code 1 decision D2. -/
def Obligations.WriteInModeWoCompletes : Prop :=
  (∀ (ch : Nibble) (code : CodeOperand) (s : State), s.rsel = .none → s.wum = .wo →
    ch.toNat ≤ 7 → code.toNat ≤ 4095 →
    exec (.writeWo ch code) s = .next
      { s with
        resp := .write
          ⟨Config.rc.opWo ++ ch, code.extractLsb' 4 8, code.extractLsb' 0 4 ++ 0#4⟩ }) ∧
  ∀ r : Request, r.op = 1 → decodeRequest .wo r = .ok (.writeWo r.ch r.code)

/-- `WRITE` in mode `wu1`, code and channel in range, emits the update-one write frame (R52). The command
nibble is the parameter `OP_WU1` (decision D5), the request code 1 decision D2. -/
def Obligations.WriteInModeWu1Completes : Prop :=
  (∀ (ch : Nibble) (code : CodeOperand) (s : State), s.rsel = .none → s.wum = .wu1 →
    ch.toNat ≤ 7 → code.toNat ≤ 4095 →
    exec (.writeWu1 ch code) s = .next
      { s with
        resp := .write
          ⟨Config.rc.opWu1 ++ ch, code.extractLsb' 4 8, code.extractLsb' 0 4 ++ 0#4⟩ }) ∧
  ∀ r : Request, r.op = 1 → decodeRequest .wu1 r = .ok (.writeWu1 r.ch r.code)

/-- `WRITE` in mode `wuall`, code in range and channel an ordinal or `all`, emits the update-all write
frame (R52). The command nibble is the parameter `OP_WUALL` (decision D5), the channel `all` the parameter
`CH_ALL` (decision D4), the request code 1 decision D2. -/
def Obligations.WriteInModeWuallCompletes : Prop :=
  (∀ (ch : Nibble) (code : CodeOperand) (s : State), s.rsel = .none → s.wum = .wuall →
    (ch.toNat ≤ 7 ∨ ch = Config.rc.chAll) → code.toNat ≤ 4095 →
    exec (.writeWuall ch code) s = .next
      { s with
        resp := .write
          ⟨Config.rc.opWuall ++ ch, code.extractLsb' 4 8, code.extractLsb' 0 4 ++ 0#4⟩ }) ∧
  ∀ r : Request, r.op = 1 → decodeRequest .wuall r = .ok (.writeWuall r.ch r.code)

/-- The round-trip law of the code field, for every configuration and its port widths, every channel and
mode (R53). -/
def Obligations.CodeFieldRoundTrips : Prop :=
  ∀ (c : Config) (ch : BitVec c.chPortW) (m : WriteUpdateMode) (code : BitVec c.codePortW) (f : WriteFrame),
    code.toNat ≤ 4095 → encValue c ch m code = .ok f →
    f.byte1.toNat <<< 4 ||| f.byte2.toNat >>> 4 = code.toNat ∧
      decodeValue f.byte1 f.byte2 = .value (code.setWidth 12)

/-- `UPDATE ch`, request `op` 2, emits the one commit frame, whatever the channel operand (R54). That no
value of `ch` is checked is decision D16, the request code decision D2. -/
def Obligations.UpdateEmitsTheCommitFrame : Prop :=
  (∀ (ch : Nibble) (s : State), s.rsel = .none →
    exec (.update ch) s = .next { s with resp := .write ⟨0x10, 0x00, 0x00⟩ }) ∧
  ∀ (wum : WriteUpdateMode) (r : Request), r.op = 2 → decodeRequest wum r = .ok (.update r.ch)

/-- The write mode has no latency: the `WRITE` right after a `SETMODE m` uses m, and a broadcast is then
accepted if m is `wuall` and is an `InvalidChannel` otherwise (R104). -/
def Obligations.WriteAfterSetmodeUsesTheNewMode : Prop :=
  ∀ (s : State) (m : WriteUpdateMode) (ch : Nibble) (code : CodeOperand) (rest : List Event),
    s.rsel = .none → code.toNat ≤ 4095 → (ch.toNat ≤ 7 ∨ ch = Config.rc.chAll) →
    s.inbox = encodeEvent (.setmode m) :: writeRequest ch code :: rest →
    Host.Core.run core 2 s = .next
      { wum := m
        rsel := .none
        resp := if ch = Config.rc.chAll ∧ m ≠ .wuall then .error .invalidChannel
          else .write ⟨Config.rc.writeOp m ++ ch, code.extractLsb' 4 8, code.extractLsb' 0 4 ++ 0#4⟩
        inbox := rest }

/-- `SETALL` with every code in range is eight `WRITE`s, A to H ascending: after the first k of them the
port carries the frame of channel k-1 in the mode in force, which stays as it is (R56, R108). -/
def Obligations.SetAllEmitsEightFramesInOrder : Prop :=
  ∀ (s : State) (codes : Vector CodeOperand 8) (evs rest : List Event), s.rsel = .none →
    setAllRequests Config.rc codes = .ok evs → s.inbox = evs ++ rest → evs.length = 8 ∧
    ∀ (k : Nat) (hk : k < 8), Host.Core.run core (k + 1) s = .next
      { wum := s.wum
        rsel := .none
        resp := .write ⟨Config.rc.writeOp s.wum ++ BitVec.ofNat 4 k,
          codes[k].extractLsb' 4 8, codes[k].extractLsb' 0 4 ++ 0#4⟩
        inbox := evs.drop (k + 1) ++ rest }

/-! ## Control operations (R60 to R66) -/

/-- `POWER pm, mask`, request `op` 3 with `opt` 0 `on`, 1 `pd1k`, 2 `pd100k`, 3 `hiz`, emits the frame of the
exact bit law: bit 7 of `byte1` is 0, bits 6:5 are the mode's code, bits 4:0 are mask bits 7:3; bits 7:5 of
`byte2` are mask bits 2:0, and the rest is 0 (R36, R60). The place of the mode is decision D7, the mode's code
the parameter `PMCODE` (decision D6), the request codes decision D2. -/
def Obligations.PowerEmitsTheExactBitLaw : Prop :=
  (∀ (pm : PowerMode) (mask : Mask) (s : State), s.rsel = .none →
    exec (.power pm mask) s = .next
      { s with
        resp := .write
          ⟨0x40, 0#1 ++ Config.rc.pmCode pm ++ mask.extractLsb' 3 5, mask.extractLsb' 0 3 ++ 0#5⟩ }) ∧
  ∀ (wum : WriteUpdateMode) (r : Request), r.op = 3 →
    decodeRequest wum r = .ok (.power
      (if r.opt = 0 then .on else if r.opt = 1 then .pd1k else if r.opt = 2 then .pd100k else .hiz) r.mask)

/-- The power frame determines its operands: the mode's code is `byte1 >> 5` and the mask is the inverse
formula of R60, so two requests with one frame are one request. -/
def Obligations.PowerFrameDeterminesModeAndMask : Prop :=
  ∀ (pm : PowerMode) (mask : Mask),
    (encPower Config.rc pm mask).byte1.toNat >>> 5 = (Config.rc.pmCode pm).toNat ∧
    ((encPower Config.rc pm mask).byte1.toNat &&& 0x1F) <<< 3 |||
      (encPower Config.rc pm mask).byte2.toNat >>> 5 = mask.toNat ∧
    ∀ (pm' : PowerMode) (mask' : Mask),
      encPower Config.rc pm mask = encPower Config.rc pm' mask' → pm = pm' ∧ mask = mask'

/-- `CLRCODE cc`, request `op` 4 with `opt` 0 `zero`, 1 `mid`, 2 `full`, 3 `disable`, emits its frame: the
code in `byte2[5:4]` and nothing else (R61). The code is the parameter `CCCODE` (decision D8), the request
codes are decision D2. -/
def Obligations.ClrcodeEmitsItsFrame : Prop :=
  (∀ (cc : ClearCode) (s : State), s.rsel = .none →
    exec (.clrcode cc) s = .next { s with resp := .write ⟨0x50, 0x00, 0#2 ++ Config.rc.ccCode cc ++ 0#4⟩ }) ∧
  ∀ (wum : WriteUpdateMode) (r : Request), r.op = 4 →
    decodeRequest wum r = .ok (.clrcode
      (if r.opt = 0 then .zero else if r.opt = 1 then .mid else if r.opt = 2 then .full else .disable))

/-- `LDACMASK mask`, request `op` 5, emits its frame: the mask whole in `byte1` (R62). The
request code is decision D2 (log entry 9), the zero `byte2` decision D11 (log entry 18). -/
def Obligations.LdacmaskEmitsItsFrame : Prop :=
  (∀ (mask : Mask) (s : State), s.rsel = .none →
    exec (.ldacmask mask) s = .next { s with resp := .write ⟨0x60, mask, 0x00⟩ }) ∧
  ∀ (wum : WriteUpdateMode) (r : Request), r.op = 5 → decodeRequest wum r = .ok (.ldacmask r.mask)

/-- `SWRESET rm`, request `op` 6 with `opt` 0 `reset`, 1 `reset_hs`, 2 `reset_keep_hs`, emits its frame and
leaves `WUM` and `RSEL` alone, and the three modes have three distinct bytes (R64). The bytes are the
parameter `RSTBYTE` (decision D9); that RC's own state is untouched is decision D23; the request codes are
decision D2. -/
def Obligations.SwresetEmitsItsFrame : Prop :=
  (∀ (rm : ResetMode) (s : State), s.rsel = .none →
    exec (.swreset rm) s = .next { s with resp := .write ⟨0x70, Config.rc.rstByte rm, 0x00⟩ }) ∧
  (∀ rm rm' : ResetMode, Config.rc.rstByte rm = Config.rc.rstByte rm' → rm = rm') ∧
  ∀ (wum : WriteUpdateMode) (r : Request), r.op = 6 →
    (r.opt = 0 → decodeRequest wum r = .ok (.swreset .reset)) ∧
    (r.opt = 1 → decodeRequest wum r = .ok (.swreset .resetHs)) ∧
    (r.opt = 2 → decodeRequest wum r = .ok (.swreset .resetKeepHs))

/-- `REFSTATIC`, request `op` 7 with `opt` 0 `off`, 1 `on`, emits its frame: bit 4 of `byte2` is 1 for on
(R65). The polarity is decision D10, the request codes decision D2. -/
def Obligations.RefstaticEmitsItsFrame : Prop :=
  (∀ s : State, s.rsel = .none →
    exec (.refstatic .on) s = .next { s with resp := .write ⟨0x80, 0x00, 0x10⟩ } ∧
    exec (.refstatic .off) s = .next { s with resp := .write ⟨0x80, 0x00, 0x00⟩ }) ∧
  ∀ (wum : WriteUpdateMode) (r : Request), r.op = 7 →
    (r.opt = 0 → decodeRequest wum r = .ok (.refstatic .off)) ∧
    (r.opt = 1 → decodeRequest wum r = .ok (.refstatic .on))

/-- `REFFLEXI f`, request `op` 8, emits its frame, `byte1` by the source's pattern table; the `opt` codes
0, 1, 2 and 3 stand for `follow`, `on`, `off` and `static` (R66). The request codes are decision D2 (log
entry 9), the zero bits besides the field decision D11 (log entry 18). -/
def Obligations.RefflexiEmitsItsFrame : Prop :=
  (∀ s : State, s.rsel = .none →
    exec (.refflexi .follow) s = .next { s with resp := .write ⟨0x90, 0b0100_0000, 0x00⟩ } ∧
    exec (.refflexi .on) s = .next { s with resp := .write ⟨0x90, 0b0101_0000, 0x00⟩ } ∧
    exec (.refflexi .off) s = .next { s with resp := .write ⟨0x90, 0b0110_0000, 0x00⟩ } ∧
    exec (.refflexi .static) s = .next { s with resp := .write ⟨0x90, 0b0000_0000, 0x00⟩ }) ∧
  ∀ (wum : WriteUpdateMode) (r : Request), r.op = 8 →
    decodeRequest wum r = .ok (.refflexi
      (if r.opt = 0 then .follow else if r.opt = 1 then .on else if r.opt = 2 then .off else .static))

/-! ## Read-back operations (R70 to R88) -/

/-- `GETVAL ch`, request `op` 9, selects the input register of an ordinal channel and leaves a value read pending; any
other channel is an `InvalidChannel`, with no frame and no read pending (R70). The check is decision
D17 (log entry 16), the command nibble the parameter `RD_OP_IN` (decision D12, log entry 10), the request
code decision D2 (log entry 9). -/
def Obligations.GetvalSelectsTheInputRegister : Prop :=
  (∀ (ch : Nibble) (s : State), s.rsel = .none →
    (ch.toNat ≤ 7 → exec (.getval ch) s =
      .next { s with resp := .select (Config.rc.rdOpIn ++ ch), rsel := .value }) ∧
    (7 < ch.toNat → exec (.getval ch) s = .next { s with resp := .error .invalidChannel })) ∧
  ∀ (wum : WriteUpdateMode) (r : Request), r.op = 9 → decodeRequest wum r = .ok (.getval r.ch)

/-- `GETDAC ch`, request `op` 10, selects the DAC register of an ordinal channel and leaves a value read pending; any other
channel is an `InvalidChannel`, with no frame and no read pending (R71). The check is decision
D17 (log entry 16), the command nibble the parameter `RD_OP_DAC` (decision D12, log entry 10), the request
code decision D2 (log entry 9). -/
def Obligations.GetdacSelectsTheDacRegister : Prop :=
  (∀ (ch : Nibble) (s : State), s.rsel = .none →
    (ch.toNat ≤ 7 → exec (.getdac ch) s =
      .next { s with resp := .select (Config.rc.rdOpDac ++ ch), rsel := .value }) ∧
    (7 < ch.toNat → exec (.getdac ch) s = .next { s with resp := .error .invalidChannel })) ∧
  ∀ (wum : WriteUpdateMode) (r : Request), r.op = 10 → decodeRequest wum r = .ok (.getdac r.ch)

/-- The five global getters, request `op` 11 to 15, emit their register's select byte and leave a read of
its class pending (R72 to R76). That a select byte carries its register's write nibble is decision D12 (log
entry 10), the request codes are decision D2 (log entry 9). -/
def Obligations.GlobalGettersSelectTheirRegisters : Prop :=
  (∀ s : State, s.rsel = .none →
    exec .getpwr s = .next { s with resp := .select 0x40, rsel := .pwr } ∧
    exec .getclr s = .next { s with resp := .select 0x50, rsel := .clr } ∧
    exec .getldac s = .next { s with resp := .select 0x60, rsel := .ldac } ∧
    exec .getrefs s = .next { s with resp := .select 0x80, rsel := .refs } ∧
    exec .getreff s = .next { s with resp := .select 0x90, rsel := .reff }) ∧
  ∀ (wum : WriteUpdateMode) (r : Request),
    (r.op = 11 → decodeRequest wum r = .ok .getpwr) ∧ (r.op = 12 → decodeRequest wum r = .ok .getclr) ∧
    (r.op = 13 → decodeRequest wum r = .ok .getldac) ∧ (r.op = 14 → decodeRequest wum r = .ok .getrefs) ∧
    (r.op = 15 → decodeRequest wum r = .ok .getreff)

/-- A reply to a value read is its 12-bit code and always valid, and the read is over (R81). -/
def Obligations.ValueReplyDecodes : Prop :=
  ∀ (rx0 rx1 : Byte) (s : State), s.rsel = .value →
    ∃ code : DacCode, code.toNat = rx0.toNat <<< 4 ||| rx1.toNat >>> 4 ∧
      exec (.replyValue rx0 rx1) s = .next { s with rsel := .none, resp := .reply (.value code) } ∧
      (Decoded.value code).valid = true

/-- A reply to a power read has its mode in `rx0[7:5]` and its mask in `rx1` whole; a field above 3 names
no mode and is not valid, and the read is over all the same (R82). What an unnamed field gives is decision
D14, the modes' codes D6. -/
def Obligations.PowerReplyDecodes : Prop :=
  ∀ (rx0 rx1 : Byte) (s : State), s.rsel = .pwr →
    ∃ d : Decoded, exec (.replyPwr rx0 rx1) s = .next { s with rsel := .none, resp := .reply d } ∧
      d = .power (rx0.extractLsb' 5 3)
        (if rx0.extractLsb' 7 1 = 0 then some (PowerMode.ofOpt (rx0.extractLsb' 5 2)) else none) rx1 ∧
      (d.valid = true ↔ (rx0.extractLsb' 5 3).toNat ≤ 3)

/-- A reply to a clear-code read has its code in `rx1[5:4]` and is always valid (R83). The place is
decision D13, the codes D8. -/
def Obligations.ClearCodeReplyDecodes : Prop :=
  ∀ (rx0 rx1 : Byte) (s : State), s.rsel = .clr →
    ∃ d : Decoded, exec (.replyClr rx0 rx1) s = .next { s with rsel := .none, resp := .reply d } ∧
      d = .clear (rx1.extractLsb' 4 2) (some (ClearCode.ofOpt (rx1.extractLsb' 4 2))) ∧
      d.valid = true

/-- A reply to an LDAC read is the whole of `rx1`, always valid (R84). That the field is all eight bits is the
spec's resolution C3 (log entry 30), that `rx0` plays no part decision D13 (R45). -/
def Obligations.LdacReplyDecodes : Prop :=
  ∀ (rx0 rx1 : Byte) (s : State), s.rsel = .ldac →
    exec (.replyLdac rx0 rx1) s = .next { s with rsel := .none, resp := .reply (.ldac rx1) } ∧
    (Decoded.ldac rx1).valid = true

/-- A reply to a static-reference read is `rx1[4]`, 1 for on, always valid (R85). The place and the
polarity are decisions D13 and D10. -/
def Obligations.StaticReferenceReplyDecodes : Prop :=
  ∀ (rx0 rx1 : Byte) (s : State), s.rsel = .refs →
    ∃ d : Decoded, exec (.replyRefs rx0 rx1) s = .next { s with rsel := .none, resp := .reply d } ∧
      d = .refStatic (rx1.extractLsb' 4 1) (if rx1.extractLsb' 4 1 = 1 then .on else .off) ∧
      d.valid = true

/-- A reply to a flexi-reference read is `rx0[6:4]`: 4 follow, 5 on, 6 off, 0 static, and 1, 2, 3 and 7
name no mode and are not valid (R86). The place is decision D13, what an unnamed field gives D14. -/
def Obligations.FlexiReferenceReplyDecodes : Prop :=
  ∀ (rx0 rx1 : Byte) (s : State), s.rsel = .reff →
    ∃ d : Decoded, exec (.replyReff rx0 rx1) s = .next { s with rsel := .none, resp := .reply d } ∧
      d = .refFlexi (rx0.extractLsb' 4 3)
        (if rx0.extractLsb' 4 3 = 0b100 then some .follow else if rx0.extractLsb' 4 3 = 0b101 then some .on
         else if rx0.extractLsb' 4 3 = 0b110 then some .off else if rx0.extractLsb' 4 3 = 0b000 then some .static
         else none) ∧
      (d.valid = true ↔ (rx0.extractLsb' 4 3).toNat ∈ [4, 5, 6, 0])

/-- The bits that R41 shows as `x` change nothing: two replies that agree on the class's fields have the
same answer in every state (R45). The places of the clear-code and reference fields are decision D13. -/
def Obligations.IgnoredReplyBitsChangeNothing : Prop :=
  ∀ (a0 a1 b0 b1 : Byte) (s : State),
    (a0 = b0 → a1 &&& 0xF0 = b1 &&& 0xF0 → exec (.replyValue a0 a1) s = exec (.replyValue b0 b1) s) ∧
    (a0 &&& 0xE0 = b0 &&& 0xE0 → a1 = b1 → exec (.replyPwr a0 a1) s = exec (.replyPwr b0 b1) s) ∧
    (a1 &&& 0x30 = b1 &&& 0x30 → exec (.replyClr a0 a1) s = exec (.replyClr b0 b1) s) ∧
    (a1 = b1 → exec (.replyLdac a0 a1) s = exec (.replyLdac b0 b1) s) ∧
    (a1 &&& 0x10 = b1 &&& 0x10 → exec (.replyRefs a0 a1) s = exec (.replyRefs b0 b1) s) ∧
    (a0 &&& 0x70 = b0 &&& 0x70 → exec (.replyReff a0 a1) s = exec (.replyReff b0 b1) s)

/-- The two steps of a read: each of the seven getters, its channel in range, followed by a reply,
answers that reply decoded by the class of its register, with no read pending and the write mode as it was
(R27, R80, R105). -/
def Obligations.SelectThenReplyDecodesByItsClass : Prop :=
  ∀ (i : Instr) (s : State) (rx0 rx1 : Byte) (rest : List Event), i.selectsClass ≠ .none →
    i.wellFormed = true → s.rsel = .none → s.inbox = encodeEvent i :: .reply rx0 rx1 :: rest →
    ∃ d : Decoded, decodedAs Config.rc i.selectsClass rx0 rx1 = some d ∧
      Host.Core.run core 2 s = .next { wum := s.wum, rsel := .none, resp := .reply d, inbox := rest }

/-- `ABORT` frees RC and responds nothing, in every state (R88, decision D19). -/
def Obligations.AbortFreesThePendingRead : Prop :=
  ∀ s : State, exec .abort s = .next { s with rsel := .none, resp := .silent }

/-- After an abort the read is over: a late reply to it is refused, whatever was selected (R88). -/
def Obligations.AbortedReadTakesNoLateReply : Prop :=
  ∀ (i : Instr) (s : State) (rx0 rx1 : Byte) (rest : List Event), i.selectsClass ≠ .none →
    i.wellFormed = true → s.rsel = .none → s.inbox = encodeEvent i :: .abort :: .reply rx0 rx1 :: rest →
    (∃ t : State, Host.Core.run core 2 s = .next t ∧ t.rsel = .none ∧ t.wum = s.wum) ∧
    Host.Core.run core 3 s = .refused .noReadPending

/-! ## Echoes, over the parameters (R65, R66, R83 to R86, C2, C4) -/

/-- The three option fields come back from an echo of their payload, in every configuration that reads
them where it writes them and gives the modes distinct codes (decision D13). -/
def Obligations.OptionFieldsReturnFromAnEcho : Prop :=
  ∀ c : Config,
    (c.clrRdShift = 4 → (∀ a b : ClearCode, c.ccCode a = c.ccCode b → a = b) →
      ∀ cc : ClearCode, decodeClear c (encClearCode c cc).byte2 = .clear (c.ccCode cc) (some cc)) ∧
    (c.refsRdShift = 4 →
      ∀ m : ReferenceStaticMode, decodeRefStatic c (encRefStatic c m).byte2 = .refStatic (refStaticBit c m) m) ∧
    (c.reffRdShift = 4 → (∀ a b : ReferenceFlexiMode, flexiField c a = flexiField c b → a = b) →
      ∀ f : ReferenceFlexiMode,
        decodeRefFlexi c (encRefFlexi c f).byte1 = .refFlexi (BitVec.ofNat 3 (flexiField c f)) (some f))

/-- An echo of a power frame returns the mode and not the mask, and an echo of an LDAC frame returns no
mask at all, in every configuration that reads the mode where it writes it (C2, R82, R84). -/
def Obligations.MasksDoNotReturnFromAnEcho : Prop :=
  ∀ c : Config, c.pmShift = 5 → c.pwrRdShift = 5 → (∀ a b : PowerMode, c.pmCode a = c.pmCode b → a = b) →
    ∀ (pm : PowerMode) (mask : Mask),
      decodePower c (encPower c pm mask).byte1 (encPower c pm mask).byte2 =
        .power ((c.pmCode pm).setWidth 3) (some pm) (mask <<< 5) ∧
      decodeLdac (encLdacMask c mask).byte2 = .ldac 0

/-! ## The outcome on `err`, and the request port whole (R40, R90) -/

/-- `err` names the outcome of every request that completes: 0 where nothing was raised, so with every
emitted frame, 1 for `InvalidValue`, 2 for `InvalidChannel`, and 3 never; a reply and an `ABORT` have no
`err` (R39, R90). The codes are decision D15 (log entry 15). -/
def Obligations.ErrNamesTheOutcome : Prop :=
  ∀ (i : Instr) (s t : State), exec i s = .next t →
    (t.resp.err Config.rc =
      if i.isReply = true ∨ i = .abort then none
      else if t.resp = .error .invalidValue then some 1
      else if t.resp = .error .invalidChannel then some 2
      else some 0) ∧
    (t.resp.tx ≠ [] → t.resp.err Config.rc = some 0) ∧
    ∀ e : BitVec 2, t.resp.err Config.rc = some e → e.toNat ≤ 2

/-- Where the two state elements select an operation's row, the port reads the operation back from the event
that presents it: no operand is lost and no two operations share a request (R39, R40). The request codes are
decision D2. -/
def Obligations.PortReadsBackEveryOperation : Prop :=
  ∀ (i : Instr) (wum : WriteUpdateMode) (rsel : ReadClass), i.selected wum rsel = true →
    decodeEvent wum rsel (encodeEvent i) = .ok i
end

