-- ==== Sys2Proof/Laws/Operands.lean ====
section
/-! SUPPORT. The arithmetic of the pure codec in fields of bits: each formula of the spec, computed on
naturals, as the concatenation it amounts to (R55, R63, R87). -/

namespace Sys2Proof.Machine

/-- Concatenation is multiplication and addition. -/
theorem append_toNat {m n : Nat} (x : BitVec m) (y : BitVec n) :
    (x ++ y).toNat = x.toNat * 2 ^ n + y.toNat := by
  rw [BitVec.toNat_append, ← Nat.shiftLeft_add_eq_or_of_lt y.isLt, Nat.shiftLeft_eq]

/-- The port types are those of the machine's configuration (R4 `CH_PORT_W`, `CODE_PORT_W`). -/
theorem port_types : Nibble = BitVec Config.rc.chPortW ∧ CodeOperand = BitVec Config.rc.codePortW := ⟨rfl, rfl⟩

theorem commandByte_eq (opc ch : Nibble) : commandByte opc ch = opc ++ ch := by
  revert opc ch; decide

theorem encSelectGlobal_eq (opc : Nibble) : encSelectGlobal opc = opc ++ 0#4 := commandByte_eq opc 0

theorem codeHigh_eq (code : CodeOperand) : codeHigh code = code.extractLsb' 4 8 := by
  apply BitVec.eq_of_toNat_eq
  simp [codeHigh, narrow]

theorem codeLow_eq (code : CodeOperand) : codeLow code = code.extractLsb' 0 4 ++ 0#4 := by
  apply BitVec.eq_of_toNat_eq
  refine Eq.trans ?_ (append_toNat _ _).symm
  simp [codeLow, narrow, Nat.shiftLeft_eq]
  omega

theorem powerLow_eq (mask : Mask) : narrow (powerField mask) = mask.extractLsb' 0 3 ++ 0#5 := by
  revert mask; decide

theorem powerHigh_eq (code : BitVec 2) (mask : Mask) :
    narrow (powerField mask >>> 8 ||| code.toNat <<< 5) = 0#1 ++ code ++ mask.extractLsb' 3 5 := by
  revert mask code; decide

theorem optionByte_eq (code : BitVec 2) : narrow (code.toNat <<< 4) = 0#2 ++ code ++ 0#4 := by
  revert code; decide

theorem decodeValue_eq (rx0 rx1 : Byte) :
    decodeValue rx0 rx1 = .value (rx0 ++ rx1.extractLsb' 4 4) := by
  have h0 := rx0.isLt
  have h1 := rx1.isLt
  unfold decodeValue
  congr 1
  apply BitVec.eq_of_toNat_eq
  refine Eq.trans ?_ (append_toNat _ _).symm
  have h : rx1.toNat >>> 4 < 2 ^ 4 := by rw [Nat.shiftRight_eq_div_pow]; omega
  rw [← Nat.shiftLeft_add_eq_or_of_lt h]
  simp [Nat.shiftLeft_eq, Nat.shiftRight_eq_div_pow]
  omega

/-! The checks of `EncValue` (R51), one lemma per outcome. -/

section
variable (c : Config) (ch : BitVec c.chPortW) (mode : WriteUpdateMode) (code : BitVec c.codePortW)

theorem encValue_value_error (h : c.codeMax < code.toNat) :
    encValue c ch mode code = .error .invalidValue := by
  simp [encValue, h]

theorem encValue_ok_iff (f : WriteFrame) :
    encValue c ch mode code = .ok f ↔
      code.toNat ≤ c.codeMax ∧ (ch.toNat = c.chAll.toNat ∧ mode = .wuall ∨ ch.toNat ≠ c.chAll.toNat ∧ ch.toNat ≤ c.nch - 1) ∧
        f = ⟨commandByte (c.writeOp mode) ch, codeHigh code, codeLow code⟩ := by
  unfold encValue
  split
  · simp; omega
  split
  · rename_i _ h
    simp [h.1, h.2]
  split
  · rename_i _ _ h
    simp [h.1]; omega
  · rename_i h1 h2 h3
    have h3' : ch.toNat ≠ c.chAll.toNat → ch.toNat ≤ c.nch - 1 := fun h => by
      by_contra h'
      exact h3 ⟨h, by omega⟩
    have h2' : ch.toNat = c.chAll.toNat → mode = .wuall := fun h => by
      by_contra h'
      exact h2 ⟨h, h'⟩
    simp only [Except.ok.injEq, eq_comm (b := f)]
    constructor
    · intro h
      refine ⟨by omega, ?_, h⟩
      by_cases hc : ch.toNat = c.chAll.toNat
      · exact .inl ⟨hc, h2' hc⟩
      · exact .inr ⟨hc, h3' hc⟩
    · exact fun h => h.2.2

end

/-- The alias, compared as a number for any port width, is the alias at the machine's width. -/
theorem isAll_iff (ch : Nibble) : ch.toNat = Config.rc.chAll.toNat ↔ ch = Config.rc.chAll := BitVec.toNat_inj

/-- All that `EncValue` answers at the machine's configuration (R51, R92, R93). -/
theorem encValue_rc (ch : Nibble) (mode : WriteUpdateMode) (code : CodeOperand) :
    encValue Config.rc ch mode code =
      if 4095 < code.toNat then .error .invalidValue
      else if ch.toNat ≤ 7 ∨ ch = Config.rc.chAll ∧ mode = .wuall then
        .ok ⟨Config.rc.writeOp mode ++ ch, code.extractLsb' 4 8, code.extractLsb' 0 4 ++ 0#4⟩
      else .error .invalidChannel := by
  by_cases hv : 4095 < code.toNat
  · rw [if_pos hv]
    exact encValue_value_error _ _ _ _ hv
  rw [if_neg hv]
  by_cases hc : ch.toNat ≤ 7 ∨ ch = Config.rc.chAll ∧ mode = .wuall
  · rw [if_pos hc, encValue_ok_iff]
    refine ⟨Nat.le_of_not_lt hv, ?_, by rw [commandByte_eq, codeHigh_eq, codeLow_eq]⟩
    obtain h | ⟨h, hm⟩ := hc
    · exact .inr ⟨fun h' => absurd ((isAll_iff ch).mp h' ▸ h) (by decide), h⟩
    · exact .inl ⟨(isAll_iff ch).mpr h, hm⟩
  · rw [if_neg hc]
    unfold encValue
    rw [if_neg hv]
    by_cases ha : ch.toNat = Config.rc.chAll.toNat
    · rw [if_pos ⟨ha, fun hm => hc (.inr ⟨(isAll_iff ch).mp ha, hm⟩)⟩]
    · rw [if_neg (fun h => ha h.1), if_pos ⟨ha, Nat.lt_of_not_le fun h => hc (.inl h)⟩]

/-- All that the select of a channel answers at the machine's configuration (R77). -/
theorem encSelectChannel_rc (opc ch : Nibble) :
    encSelectChannel Config.rc opc ch = if ch.toNat ≤ 7 then .ok (opc ++ ch) else .error .invalidChannel := by
  rw [encSelectChannel, commandByte_eq]
  change (if 7 < ch.toNat then _ else _) = _
  by_cases h : ch.toNat ≤ 7
  · rw [if_pos h, if_neg (Nat.not_lt.mpr h)]
  · rw [if_neg h, if_pos (Nat.lt_of_not_le h)]

/-- A reset mode is found by its byte where the bytes are distinct (R64, C6). -/
theorem ofByte_of_distinct {rst : ResetMode → Byte} (h : ∀ a b : ResetMode, rst a = rst b → a = b) (rm : ResetMode) :
    ResetMode.ofByte rst (rst rm) = some rm := by
  cases hf : ResetMode.ofByte rst (rst rm) with
  | none =>
    have hmem : rm ∈ ResetMode.members := by cases rm <;> decide
    exact absurd (beq_self_eq_true (rst rm)) (by simpa using List.find?_eq_none.mp hf rm hmem)
  | some a => exact congrArg some (h _ _ (by simpa using List.find?_some hf))

/-- The reset mode found by a byte has that byte. -/
theorem ofByte_some {rst : ResetMode → Byte} {b : Byte} {rm : ResetMode} (h : ResetMode.ofByte rst b = some rm) :
    rst rm = b := by
  simpa using List.find?_some h

/-- A member is found by its code where codes are distinct. -/
theorem memberOf_code {α : Type} [DecidableEq α] (members : List α) (code : α → Nat) (a : α)
    (hmem : a ∈ members) (hinj : ∀ b ∈ members, code b = code a → b = a) :
    memberOf members code (code a) = some a := by
  unfold memberOf
  cases h : members.find? (fun m => code m == code a) with
  | none => exact absurd (beq_self_eq_true (code a)) (by simpa using List.find?_eq_none.mp h a hmem)
  | some b =>
    have hb := List.find?_some h
    rw [hinj b (List.mem_of_find?_eq_some h) (by simpa using hb)]

end Sys2Proof.Machine
end

