-- ==== Sys2Proof/Laws/State.lean ====
section
/-! SUPPORT. One lemma per field per update of State, true by rfl, so that no later proof unfolds a record
update; and the fields of the reset state. -/

namespace Sys2Proof.Machine

variable (s : State) (m : WriteUpdateMode) (cls : ReadClass) (r : Response) (evs : List Event)

@[simp] theorem setMode_wum : (s.setMode m).wum = m := rfl
@[simp] theorem setMode_rsel : (s.setMode m).rsel = s.rsel := rfl
@[simp] theorem setMode_resp : (s.setMode m).resp = s.resp := rfl
@[simp] theorem setMode_inbox : (s.setMode m).inbox = s.inbox := rfl

@[simp] theorem latch_wum : (s.latch cls).wum = s.wum := rfl
@[simp] theorem latch_rsel : (s.latch cls).rsel = cls := rfl
@[simp] theorem latch_resp : (s.latch cls).resp = s.resp := rfl
@[simp] theorem latch_inbox : (s.latch cls).inbox = s.inbox := rfl

@[simp] theorem respond_wum : (s.respond r).wum = s.wum := rfl
@[simp] theorem respond_rsel : (s.respond r).rsel = s.rsel := rfl
@[simp] theorem respond_resp : (s.respond r).resp = r := rfl
@[simp] theorem respond_inbox : (s.respond r).inbox = s.inbox := rfl

@[simp] theorem present_wum : (s.present evs).wum = s.wum := rfl
@[simp] theorem present_rsel : (s.present evs).rsel = s.rsel := rfl
@[simp] theorem present_resp : (s.present evs).resp = s.resp := rfl
@[simp] theorem present_inbox : (s.present evs).inbox = evs := rfl

@[simp] theorem reset_wum : State.reset.wum = Config.rc.wumReset := rfl
@[simp] theorem reset_rsel : State.reset.rsel = .none := rfl
@[simp] theorem reset_resp : State.reset.resp = .silent := rfl
@[simp] theorem reset_inbox : State.reset.inbox = [] := rfl

end Sys2Proof.Machine
end

