-- ==== Sys2Proof/Laws/Ops.lean ====
section
/-! SUPPORT. Each shared operation, once: what it answers where its conditions hold, and all it can have
done if it answers a next state. -/

namespace Sys2Proof.Machine

variable {s t : State}

theorem asRequest_idle (h : s.rsel = .none) (body : Answer) : asRequest s body = body := by
  simp [asRequest, h]

theorem asRequest_pending (h : s.rsel ≠ .none) (body : Answer) :
    asRequest s body = .refused .readPending := by
  simp [asRequest, h]

theorem asRequest_next {body : Answer} (h : asRequest s body = .next t) :
    s.rsel = .none ∧ body = .next t := by
  by_cases hr : s.rsel = .none
  · exact ⟨hr, asRequest_idle hr body ▸ h⟩
  · rw [asRequest_pending hr] at h; cases h

theorem writeFrame_next {f : WriteFrame} (h : writeFrame f s = .next t) :
    s.rsel = .none ∧ t = s.respond (.write f) := by
  obtain ⟨hr, hb⟩ := asRequest_next h
  cases hb
  exact ⟨hr, rfl⟩

theorem writeCode_next {row : WriteUpdateMode} {ch : Nibble} {code : CodeOperand}
    (h : writeCode row ch code s = .next t) :
    s.rsel = .none ∧ s.wum = row ∧
      ((∃ f, encValue Config.rc ch row code = .ok f ∧ t = s.respond (.write f)) ∨
       (∃ k, encValue Config.rc ch row code = .error k ∧ t = s.respond (.error k))) := by
  obtain ⟨hr, hb⟩ := asRequest_next h
  by_cases hm : s.wum = row
  · subst hm
    rw [if_pos rfl] at hb
    refine ⟨hr, rfl, ?_⟩
    cases he : encValue Config.rc ch s.wum code with
    | ok f => rw [he] at hb; cases hb; exact .inl ⟨f, rfl, rfl⟩
    | error k => rw [he] at hb; cases hb; exact .inr ⟨k, rfl, rfl⟩
  · rw [if_neg hm] at hb; cases hb

theorem selectChannel_next {opc ch : Nibble} (h : selectChannel opc ch s = .next t) :
    s.rsel = .none ∧
      ((∃ b0, encSelectChannel Config.rc opc ch = .ok b0 ∧ t = (s.latch .value).respond (.select b0)) ∨
       (∃ k, encSelectChannel Config.rc opc ch = .error k ∧ t = s.respond (.error k))) := by
  obtain ⟨hr, hb⟩ := asRequest_next h
  refine ⟨hr, ?_⟩
  cases he : encSelectChannel Config.rc opc ch with
  | ok b0 => rw [he] at hb; cases hb; exact .inl ⟨b0, rfl, rfl⟩
  | error k => rw [he] at hb; cases hb; exact .inr ⟨k, rfl, rfl⟩

theorem selectGlobal_next {opc : Nibble} {cls : ReadClass} (h : selectGlobal opc cls s = .next t) :
    s.rsel = .none ∧ t = (s.latch cls).respond (.select (encSelectGlobal opc)) := by
  obtain ⟨hr, hb⟩ := asRequest_next h
  cases hb
  exact ⟨hr, rfl⟩

theorem takeReply_here {row : ReadClass} (hn : row ≠ .none) (h : s.rsel = row) (d : Decoded) :
    takeReply row d s = .next ((s.latch .none).respond (.reply d)) := by
  simp [takeReply, h, hn]

theorem takeReply_next {row : ReadClass} {d : Decoded} (h : takeReply row d s = .next t) :
    s.rsel ≠ .none ∧ s.rsel = row ∧ t = (s.latch .none).respond (.reply d) := by
  unfold takeReply at h
  split at h
  · cases h
  · split at h
    · cases h; exact ⟨‹_›, ‹_›, rfl⟩
    · cases h

/-- All that an operation can do: the six ways in which `exec` answers a next state. -/
theorem exec_next {i : Instr} (h : exec i s = .next t) :
    (∃ m, i = .setmode m ∧ s.rsel = .none ∧ t = (s.setMode m).respond .done) ∨
    (∃ f, s.rsel = .none ∧ t = s.respond (.write f)) ∨
    (∃ k, s.rsel = .none ∧ t = s.respond (.error k)) ∨
    (∃ b0 cls, s.rsel = .none ∧ cls ≠ .none ∧ t = (s.latch cls).respond (.select b0)) ∨
    (∃ d, s.rsel ≠ .none ∧ t = (s.latch .none).respond (.reply d)) ∨
    (i = .abort ∧ t = (s.latch .none).respond .silent) := by
  have hw {row ch code} (h : writeCode row ch code s = .next t) :
      (∃ f, s.rsel = .none ∧ t = s.respond (.write f)) ∨
      (∃ k, s.rsel = .none ∧ t = s.respond (.error k)) := by
    obtain ⟨hr, -, ⟨f, -, rfl⟩ | ⟨k, -, rfl⟩⟩ := writeCode_next h
    · exact .inl ⟨f, hr, rfl⟩
    · exact .inr ⟨k, hr, rfl⟩
  have hf {f} (h : writeFrame f s = .next t) : ∃ f, s.rsel = .none ∧ t = s.respond (.write f) :=
    ⟨f, writeFrame_next h⟩
  have hc {opc ch} (h : selectChannel opc ch s = .next t) :
      (∃ k, s.rsel = .none ∧ t = s.respond (.error k)) ∨
      (∃ b0 cls, s.rsel = .none ∧ cls ≠ .none ∧ t = (s.latch cls).respond (.select b0)) := by
    obtain ⟨hr, ⟨b0, -, rfl⟩ | ⟨k, -, rfl⟩⟩ := selectChannel_next h
    · exact .inr ⟨b0, .value, hr, by decide, rfl⟩
    · exact .inl ⟨k, hr, rfl⟩
  have hg {opc cls} (hn : cls ≠ .none) (h : selectGlobal opc cls s = .next t) :
      ∃ b0 cls, s.rsel = .none ∧ cls ≠ .none ∧ t = (s.latch cls).respond (.select b0) :=
    ⟨_, cls, (selectGlobal_next h).1, hn, (selectGlobal_next h).2⟩
  have hp {row d} (h : takeReply row d s = .next t) :
      ∃ d, s.rsel ≠ .none ∧ t = (s.latch .none).respond (.reply d) :=
    ⟨d, (takeReply_next h).1, (takeReply_next h).2.2⟩
  cases i with
  | setmode m =>
    obtain ⟨hr, hb⟩ := asRequest_next h
    cases hb
    exact .inl ⟨m, rfl, hr, rfl⟩
  | writeWo ch code => exact .inr ((hw h).elim .inl (.inr ∘ .inl))
  | writeWu1 ch code => exact .inr ((hw h).elim .inl (.inr ∘ .inl))
  | writeWuall ch code => exact .inr ((hw h).elim .inl (.inr ∘ .inl))
  | update ch => exact .inr (.inl (hf h))
  | power pm mask => exact .inr (.inl (hf h))
  | clrcode cc => exact .inr (.inl (hf h))
  | ldacmask mask => exact .inr (.inl (hf h))
  | swreset rm => exact .inr (.inl (hf h))
  | refstatic m => exact .inr (.inl (hf h))
  | refflexi f => exact .inr (.inl (hf h))
  | getval ch => exact .inr (.inr ((hc h).elim .inl (.inr ∘ .inl)))
  | getdac ch => exact .inr (.inr ((hc h).elim .inl (.inr ∘ .inl)))
  | getpwr => exact .inr (.inr (.inr (.inl (hg (by decide) h))))
  | getclr => exact .inr (.inr (.inr (.inl (hg (by decide) h))))
  | getldac => exact .inr (.inr (.inr (.inl (hg (by decide) h))))
  | getrefs => exact .inr (.inr (.inr (.inl (hg (by decide) h))))
  | getreff => exact .inr (.inr (.inr (.inl (hg (by decide) h))))
  | replyValue rx0 rx1 => exact .inr (.inr (.inr (.inr (.inl (hp h)))))
  | replyPwr rx0 rx1 => exact .inr (.inr (.inr (.inr (.inl (hp h)))))
  | replyClr rx0 rx1 => exact .inr (.inr (.inr (.inr (.inl (hp h)))))
  | replyLdac rx0 rx1 => exact .inr (.inr (.inr (.inr (.inl (hp h)))))
  | replyRefs rx0 rx1 => exact .inr (.inr (.inr (.inr (.inl (hp h)))))
  | replyReff rx0 rx1 => exact .inr (.inr (.inr (.inr (.inl (hp h)))))
  | abort => cases h; exact .inr (.inr (.inr (.inr (.inr ⟨rfl, rfl⟩))))

/-- All the ways in which `exec` refuses: a request while a read is pending, a reply row while none or
another class is, and a `WRITE` row of another mode. No operation ends in a fault. -/
theorem exec_refused {i : Instr} {r : Refusal} (h : exec i s = .refused r) :
    (r = .readPending ∧ i.rowClass = some .none ∧ s.rsel ≠ .none) ∨
    (r = .noReadPending ∧ i.isReply = true ∧ s.rsel = .none) ∨
    (r = .otherWriteMode ∧ s.rsel = .none ∧ ∃ m, i.rowMode = some m ∧ s.wum ≠ m) ∨
    (r = .otherReadClass ∧ i.isReply = true ∧ ∃ cls, i.rowClass = some cls ∧ s.rsel ≠ .none ∧ s.rsel ≠ cls) := by
  have hq {body : Answer} (hb : ∀ r, body ≠ .refused r) (h : asRequest s body = .refused r) :
      r = .readPending ∧ s.rsel ≠ .none := by
    by_cases hr : s.rsel = .none
    · exact absurd (asRequest_idle hr body ▸ h) (hb r)
    · rw [asRequest_pending hr] at h; cases h; exact ⟨rfl, hr⟩
  have hw {row ch code} (h : writeCode row ch code s = .refused r) :
      (r = .readPending ∧ s.rsel ≠ .none) ∨ (r = .otherWriteMode ∧ s.rsel = .none ∧ s.wum ≠ row) := by
    by_cases hr : s.rsel = .none
    · rw [writeCode, asRequest_idle hr] at h
      by_cases hm : s.wum = row
      · rw [if_pos hm] at h
        cases he : encValue Config.rc ch s.wum code <;> rw [he] at h <;> cases h
      · rw [if_neg hm] at h; cases h; exact .inr ⟨rfl, hr, hm⟩
    · rw [writeCode, asRequest_pending hr] at h; cases h; exact .inl ⟨rfl, hr⟩
  have hc {opc ch} (h : selectChannel opc ch s = .refused r) : r = .readPending ∧ s.rsel ≠ .none := by
    refine hq (fun r hb => ?_) h
    cases he : encSelectChannel Config.rc opc ch <;> rw [he] at hb <;> cases hb
  have hn {t : State} : ∀ r, (Host.Outcome.next t : Answer) ≠ .refused r := fun _ hb => nomatch hb
  have hp {row d} (h : takeReply row d s = .refused r) :
      (r = .noReadPending ∧ s.rsel = .none) ∨ (r = .otherReadClass ∧ s.rsel ≠ .none ∧ s.rsel ≠ row) := by
    unfold takeReply at h
    split at h
    · cases h; exact .inl ⟨rfl, ‹_›⟩
    · split at h
      · cases h
      · cases h; exact .inr ⟨rfl, ‹_›, ‹_›⟩
  cases i with
  | writeWo ch code =>
    exact (hw h).elim (fun h => .inl ⟨h.1, rfl, h.2⟩) fun h => .inr (.inr (.inl ⟨h.1, h.2.1, .wo, rfl, h.2.2⟩))
  | writeWu1 ch code =>
    exact (hw h).elim (fun h => .inl ⟨h.1, rfl, h.2⟩) fun h => .inr (.inr (.inl ⟨h.1, h.2.1, .wu1, rfl, h.2.2⟩))
  | writeWuall ch code =>
    exact (hw h).elim (fun h => .inl ⟨h.1, rfl, h.2⟩) fun h => .inr (.inr (.inl ⟨h.1, h.2.1, .wuall, rfl, h.2.2⟩))
  | getval ch => exact .inl ⟨(hc h).1, rfl, (hc h).2⟩
  | getdac ch => exact .inl ⟨(hc h).1, rfl, (hc h).2⟩
  | replyValue rx0 rx1 =>
    exact (hp h).elim (fun h => .inr (.inl ⟨h.1, rfl, h.2⟩)) fun h => .inr (.inr (.inr ⟨h.1, rfl, _, rfl, h.2⟩))
  | replyPwr rx0 rx1 =>
    exact (hp h).elim (fun h => .inr (.inl ⟨h.1, rfl, h.2⟩)) fun h => .inr (.inr (.inr ⟨h.1, rfl, _, rfl, h.2⟩))
  | replyClr rx0 rx1 =>
    exact (hp h).elim (fun h => .inr (.inl ⟨h.1, rfl, h.2⟩)) fun h => .inr (.inr (.inr ⟨h.1, rfl, _, rfl, h.2⟩))
  | replyLdac rx0 rx1 =>
    exact (hp h).elim (fun h => .inr (.inl ⟨h.1, rfl, h.2⟩)) fun h => .inr (.inr (.inr ⟨h.1, rfl, _, rfl, h.2⟩))
  | replyRefs rx0 rx1 =>
    exact (hp h).elim (fun h => .inr (.inl ⟨h.1, rfl, h.2⟩)) fun h => .inr (.inr (.inr ⟨h.1, rfl, _, rfl, h.2⟩))
  | replyReff rx0 rx1 =>
    exact (hp h).elim (fun h => .inr (.inl ⟨h.1, rfl, h.2⟩)) fun h => .inr (.inr (.inr ⟨h.1, rfl, _, rfl, h.2⟩))
  | abort => cases h
  | setmode m => exact .inl ⟨(hq hn h).1, rfl, (hq hn h).2⟩
  | update ch => exact .inl ⟨(hq hn h).1, rfl, (hq hn h).2⟩
  | power pm mask => exact .inl ⟨(hq hn h).1, rfl, (hq hn h).2⟩
  | clrcode cc => exact .inl ⟨(hq hn h).1, rfl, (hq hn h).2⟩
  | ldacmask mask => exact .inl ⟨(hq hn h).1, rfl, (hq hn h).2⟩
  | swreset rm => exact .inl ⟨(hq hn h).1, rfl, (hq hn h).2⟩
  | refstatic m => exact .inl ⟨(hq hn h).1, rfl, (hq hn h).2⟩
  | refflexi f => exact .inl ⟨(hq hn h).1, rfl, (hq hn h).2⟩
  | getpwr => exact .inl ⟨(hq hn h).1, rfl, (hq hn h).2⟩
  | getclr => exact .inl ⟨(hq hn h).1, rfl, (hq hn h).2⟩
  | getldac => exact .inl ⟨(hq hn h).1, rfl, (hq hn h).2⟩
  | getrefs => exact .inl ⟨(hq hn h).1, rfl, (hq hn h).2⟩
  | getreff => exact .inl ⟨(hq hn h).1, rfl, (hq hn h).2⟩

end Sys2Proof.Machine
end

