-- ==== Sys2Proof/Laws/PerInstr.lean ====
section
/-! SUPPORT. Families of statements about every operation, one lemma per constructor. -/

namespace Sys2Proof.Laws.PortRoundTrip

/-- Where the two state elements select an operation's row, the port reads the operation back from the
event that presents it: no operand is lost on the request port (R39, R40). -/
def Statement (i : Instr) : Prop :=
  ∀ wum rsel, i.selected wum rsel = true → decodeEvent wum rsel (encodeEvent i) = .ok i

theorem setmode (m : WriteUpdateMode) : Statement (.setmode m) := by
  intro _ _ _; cases m <;> rfl

theorem writeWo (ch : Nibble) (code : CodeOperand) : Statement (.writeWo ch code) := by
  intro wum _ h; cases wum <;> first | rfl | exact absurd h (by simp [Instr.rowMode])

theorem writeWu1 (ch : Nibble) (code : CodeOperand) : Statement (.writeWu1 ch code) := by
  intro wum _ h; cases wum <;> first | rfl | exact absurd h (by simp [Instr.rowMode])

theorem writeWuall (ch : Nibble) (code : CodeOperand) : Statement (.writeWuall ch code) := by
  intro wum _ h; cases wum <;> first | rfl | exact absurd h (by simp [Instr.rowMode])

theorem update (ch : Nibble) : Statement (.update ch) := fun _ _ _ => rfl

theorem power (pm : PowerMode) (mask : Mask) : Statement (.power pm mask) := by
  intro _ _ _; cases pm <;> rfl

theorem clrcode (cc : ClearCode) : Statement (.clrcode cc) := by
  intro _ _ _; cases cc <;> rfl

theorem ldacmask (mask : Mask) : Statement (.ldacmask mask) := fun _ _ _ => rfl

theorem swreset (rm : ResetMode) : Statement (.swreset rm) := by
  intro _ _ _; cases rm <;> rfl

theorem refstatic (m : ReferenceStaticMode) : Statement (.refstatic m) := by
  intro _ _ _; cases m <;> rfl

theorem refflexi (f : ReferenceFlexiMode) : Statement (.refflexi f) := by
  intro _ _ _; cases f <;> rfl

theorem getval (ch : Nibble) : Statement (.getval ch) := fun _ _ _ => rfl

theorem getdac (ch : Nibble) : Statement (.getdac ch) := fun _ _ _ => rfl

theorem getpwr : Statement .getpwr := fun _ _ _ => rfl

theorem getclr : Statement .getclr := fun _ _ _ => rfl

theorem getldac : Statement .getldac := fun _ _ _ => rfl

theorem getrefs : Statement .getrefs := fun _ _ _ => rfl

theorem getreff : Statement .getreff := fun _ _ _ => rfl

theorem replyValue (rx0 : Byte) (rx1 : Byte) : Statement (.replyValue rx0 rx1) := by
  intro _ rsel h; cases rsel <;> first | rfl | exact absurd h (by simp [Instr.rowClass])

theorem replyPwr (rx0 : Byte) (rx1 : Byte) : Statement (.replyPwr rx0 rx1) := by
  intro _ rsel h; cases rsel <;> first | rfl | exact absurd h (by simp [Instr.rowClass])

theorem replyClr (rx0 : Byte) (rx1 : Byte) : Statement (.replyClr rx0 rx1) := by
  intro _ rsel h; cases rsel <;> first | rfl | exact absurd h (by simp [Instr.rowClass])

theorem replyLdac (rx0 : Byte) (rx1 : Byte) : Statement (.replyLdac rx0 rx1) := by
  intro _ rsel h; cases rsel <;> first | rfl | exact absurd h (by simp [Instr.rowClass])

theorem replyRefs (rx0 : Byte) (rx1 : Byte) : Statement (.replyRefs rx0 rx1) := by
  intro _ rsel h; cases rsel <;> first | rfl | exact absurd h (by simp [Instr.rowClass])

theorem replyReff (rx0 : Byte) (rx1 : Byte) : Statement (.replyReff rx0 rx1) := by
  intro _ rsel h; cases rsel <;> first | rfl | exact absurd h (by simp [Instr.rowClass])

theorem abort : Statement .abort := fun _ _ _ => rfl

end Sys2Proof.Laws.PortRoundTrip
end

