-- ==== Sys2Proof/Laws/Step.lean ====
section
/-! SUPPORT. What one step can do, and what the host's event at the head of the inbox makes of it. -/

namespace Sys2Proof.Machine

variable {s t : State} {rest : List Event}

theorem step_noEvent (h : s.inbox = []) : step s = .refused .noEvent := by
  simp [step, advance, fetch, h]

theorem step_event {ev : Event} (h : s.inbox = ev :: rest) : step s = perform ev (s.present rest) := by
  simp [step, advance, fetch, h]

theorem perform_reset : perform .reset s = .next (takeReset s) := rfl

theorem perform_abort : perform .abort s = exec .abort s := rfl

theorem perform_request_pending (h : s.rsel ≠ .none) (r : Request) :
    perform (.request r) s = .refused .readPending := by
  simp [perform, notEnabled, h]

theorem perform_request_decoded (h : s.rsel = .none) {r : Request} {i : Instr}
    (hd : decodeRequest s.wum r = .ok i) : perform (.request r) s = exec i s := by
  simp [perform, notEnabled, h, decodeEvent, hd]

theorem perform_request_unlisted (h : s.rsel = .none) {r : Request} {e : PortError}
    (hd : decodeRequest s.wum r = .error e) : perform (.request r) s = .refused (.undecoded e) := by
  simp [perform, notEnabled, h, decodeEvent, hd]

theorem perform_reply_idle (h : s.rsel = .none) (rx0 rx1 : Byte) :
    perform (.reply rx0 rx1) s = .refused .noReadPending := by
  simp [perform, notEnabled, h]

theorem perform_reply_row (h : s.rsel ≠ .none) {rx0 rx1 : Byte} {i : Instr}
    (hd : replyRow s.rsel rx0 rx1 = some i) : perform (.reply rx0 rx1) s = exec i s := by
  simp [perform, notEnabled, h, decodeEvent, hd]

/-- All that one step can do: it takes one event, and then it resets or runs the event's operation. -/
theorem step_next (h : step s = .next t) :
    ∃ ev rest, s.inbox = ev :: rest ∧
      ((ev = .reset ∧ t = State.reset.present rest) ∨
       (∃ i, decodeEvent s.wum s.rsel ev = .ok i ∧ exec i (s.present rest) = .next t)) := by
  cases hi : s.inbox with
  | nil => rw [step_noEvent hi] at h; cases h
  | cons ev rest =>
    rw [step_event hi] at h
    refine ⟨ev, rest, rfl, ?_⟩
    unfold perform at h
    split at h
    · cases h
    · split at h
      · cases h; exact .inl ⟨rfl, rfl⟩
      all_goals
        split at h
        · exact .inr ⟨_, ‹_›, h⟩
        · cases h

end Sys2Proof.Machine
end

