-- ==== Sys2Proof/Laws/Run.lean ====
section
/-! SUPPORT. Runs of several steps, and the reply that ends a read. -/

namespace Sys2Proof.Machine

variable {s t : State}

/-- One step of a run of any machine. -/
theorem run_succ (M : Host.Core) (s : M.State) (k : Nat) :
    Host.Core.run M (k + 1) s = (match M.step s with
      | .next s' => Host.Core.run M k s'
      | .fault r => .fault r
      | .refused r => .refused r) := rfl

theorem run_zero (s : State) : Host.Core.run core 0 s = .next s := rfl

theorem run_next (h : step s = .next t) (k : Nat) : Host.Core.run core (k + 1) s = Host.Core.run core k t := by
  refine (run_succ core s k).trans ?_
  have h' : core.step s = .next t := h
  rw [h']

theorem run_refused {r : Refusal} (h : step s = .refused r) (k : Nat) :
    Host.Core.run core (k + 1) s = .refused r := by
  refine (run_succ core s k).trans ?_
  have h' : core.step s = .refused r := h
  rw [h']

/-- A reply to any pending read is decoded by the read's class, and the read is over. -/
theorem perform_reply_pending (h : s.rsel ≠ .none) (rx0 rx1 : Byte) :
    ∃ d, decodedAs Config.rc s.rsel rx0 rx1 = some d ∧
      perform (.reply rx0 rx1) s = .next ((s.latch .none).respond (.reply d)) := by
  have key {i : Instr} {cls : ReadClass} {d : Decoded} (hs : s.rsel = cls) (hn : cls ≠ .none)
      (hrow : replyRow cls rx0 rx1 = some i) (hi : exec i s = takeReply cls d s) :
      perform (.reply rx0 rx1) s = .next ((s.latch .none).respond (.reply d)) :=
    ((perform_reply_row h (hs ▸ hrow)).trans hi).trans (takeReply_here hn hs d)
  cases hs : s.rsel with
  | none => exact absurd hs h
  | value => exact ⟨_, rfl, key hs (by decide) rfl rfl⟩
  | pwr => exact ⟨_, rfl, key hs (by decide) rfl rfl⟩
  | clr => exact ⟨_, rfl, key hs (by decide) rfl rfl⟩
  | ldac => exact ⟨_, rfl, key hs (by decide) rfl rfl⟩
  | refs => exact ⟨_, rfl, key hs (by decide) rfl rfl⟩
  | reff => exact ⟨_, rfl, key hs (by decide) rfl rfl⟩

end Sys2Proof.Machine
end

