-- ==== Sys2Proof/Tests/Slice0.lean ====
section
/-! SUPPORT. Tests of single definitions and single steps, and the witnesses of the statements. Expected
results are the vectors V1 to V14 and program P2 of spec/95_test_vectors.md and the words of R41, written
out bit by bit; the vector's number stands at the test. -/

namespace Sys2Proof.Tests.Slice0

open Sys2Proof.Machine

/-! ## Helpers -/

/-- A small state: the two state elements, and the events that the host presents. -/
def facing (m : WriteUpdateMode) (c : ReadClass) (evs : List Event) : State := ⟨m, c, .silent, evs⟩

/-- A state with no read pending and no event presented. -/
def idle (m : WriteUpdateMode) : State := facing m .none []

/-- A state with a read pending. -/
def pending (c : ReadClass) : State := facing .wo c []

/-- What the port carries after a step, if there is one. -/
def port : Answer → Option Response
  | .next t => some t.resp
  | .fault _ | .refused _ => none

/-- The pending-read latch after a step, if there is one. -/
def latch : Answer → Option ReadClass
  | .next t => some t.rsel
  | .fault _ | .refused _ => none

/-- The write mode after a step, if there is one. -/
def mode : Answer → Option WriteUpdateMode
  | .next t => some t.wum
  | .fault _ | .refused _ => none

/-- The refusal of an answer. -/
def refusal : Answer → Option Refusal
  | .refused r => some r
  | .next _ | .fault _ => none

/-- The operation a decoder gives. -/
def given {ε : Type} : Except ε Instr → Option Instr
  | .ok i => some i
  | .error _ => none

/-! ## Well-formedness: one ill-formed term for each check -/

theorem test_ill_formed_writeWo_channel_8 : Instr.wellFormed (.writeWo 8 0) = false := by decide
theorem test_ill_formed_writeWo_all : Instr.wellFormed (.writeWo 15 0) = false := by decide
theorem test_ill_formed_writeWo_code_4096 : Instr.wellFormed (.writeWo 7 4096) = false := by decide
theorem test_ill_formed_writeWu1_channel_8 : Instr.wellFormed (.writeWu1 8 0) = false := by decide
theorem test_ill_formed_writeWu1_all : Instr.wellFormed (.writeWu1 15 0) = false := by decide
theorem test_ill_formed_writeWu1_code_4096 : Instr.wellFormed (.writeWu1 0 4096) = false := by decide
theorem test_ill_formed_writeWuall_channel_14 : Instr.wellFormed (.writeWuall 14 100) = false := by decide
theorem test_ill_formed_writeWuall_code_4096 : Instr.wellFormed (.writeWuall 15 4096) = false := by decide
theorem test_ill_formed_getval_channel_8 : Instr.wellFormed (.getval 8) = false := by decide
theorem test_ill_formed_getdac_all : Instr.wellFormed (.getdac 15) = false := by decide

theorem test_well_formed_bounds :
    (Instr.writeWo 7 4095).wellFormed = true ∧ (Instr.writeWu1 7 4095).wellFormed = true ∧
    (Instr.writeWuall 15 4095).wellFormed = true ∧ (Instr.getval 7).wellFormed = true ∧
    (Instr.getdac 7).wellFormed = true := by decide

/-! ## Decoding: one word for every constructor, each bit from the pattern of R41 -/

theorem test_decode_writeWo : decodeTableWord 24 0b0000_0011_1010_1011_1100_0000 = some (.writeWo 3 0xABC) := by decide
theorem test_decode_writeWu1 : decodeTableWord 24 0b0011_0101_0101_0101_0101_0000 = some (.writeWu1 5 0x555) := by decide
theorem test_decode_writeWuall : decodeTableWord 24 0b0010_1111_0000_0000_0001_0000 = some (.writeWuall 15 1) := by decide
theorem test_decode_update : decodeTableWord 24 0b0001_0000_0000_0000_0000_0000 = some (.update 0) := by decide
theorem test_decode_power : decodeTableWord 24 0b0100_0000_0101_0101_0000_0000 = some (.power .pd100k 0b1010_1000) := by decide
theorem test_decode_clrcode : decodeTableWord 24 0b0101_0000_0000_0000_0010_0000 = some (.clrcode .full) := by decide
theorem test_decode_ldacmask : decodeTableWord 24 0b0110_0000_1010_0101_0000_0000 = some (.ldacmask 0b1010_0101) := by decide
theorem test_decode_swreset : decodeTableWord 24 0b0111_0000_0100_0000_0000_0000 = some (.swreset .resetHs) := by decide
theorem test_decode_refstatic : decodeTableWord 24 0b1000_0000_0000_0000_0001_0000 = some (.refstatic .on) := by decide
theorem test_decode_refflexi : decodeTableWord 24 0b1001_0000_0110_0000_0000_0000 = some (.refflexi .off) := by decide
theorem test_decode_getval : decodeTableWord 8 0b0000_0010 = some (.getval 2) := by decide
theorem test_decode_getdac : decodeTableWord 8 0b0001_0111 = some (.getdac 7) := by decide
theorem test_decode_getpwr : decodeTableWord 8 0b0100_0000 = some (.getpwr) := by decide
theorem test_decode_getclr : decodeTableWord 8 0b0101_0000 = some (.getclr) := by decide
theorem test_decode_getldac : decodeTableWord 8 0b0110_0000 = some (.getldac) := by decide
theorem test_decode_getrefs : decodeTableWord 8 0b1000_0000 = some (.getrefs) := by decide
theorem test_decode_getreff : decodeTableWord 8 0b1001_0000 = some (.getreff) := by decide
theorem test_decode_replyValue :
    given (decode .value [0b0100_0000, 0b1010_1000]) = some (.replyValue 0x40 0xA8) := by decide
theorem test_decode_replyPwr :
    given (decode .pwr [0b0100_0000, 0b1010_1000]) = some (.replyPwr 0x40 0xA8) := by decide
theorem test_decode_replyClr :
    given (decode .clr [0b0100_0000, 0b1010_1000]) = some (.replyClr 0x40 0xA8) := by decide
theorem test_decode_replyLdac :
    given (decode .ldac [0b0100_0000, 0b1010_1000]) = some (.replyLdac 0x40 0xA8) := by decide
theorem test_decode_replyRefs :
    given (decode .refs [0b0100_0000, 0b1010_1000]) = some (.replyRefs 0x40 0xA8) := by decide
theorem test_decode_replyReff :
    given (decode .reff [0b0100_0000, 0b1010_1000]) = some (.replyReff 0x40 0xA8) := by decide

/-- The two operations without a frame are known by their event alone (R40, R88). -/
theorem test_decode_setmode :
    given (decodeEvent .wo .none (.request ⟨0b0000, 0, 0, 0, 0b10⟩)) = some (.setmode .wuall) := by decide

theorem test_decode_abort : given (decodeEvent .wo .pwr .abort) = some .abort := by decide

/-- The request codes of R40, 0 to 15 in order. -/
theorem test_request_codes :
    (List.range 16).map (fun n => given (decodeRequest .wu1 ⟨BitVec.ofNat 4 n, 3, 7, 0xA5, 1⟩)) =
      [some (.setmode .wu1), some (.writeWu1 3 7), some (.update 3), some (.power .pd1k 0xA5), some (.clrcode .mid),
       some (.ldacmask 0xA5), some (.swreset .resetHs), some (.refstatic .on), some (.refflexi .on),
       some (.getval 3), some (.getdac 3), some .getpwr, some .getclr, some .getldac, some .getrefs,
       some .getreff] := by decide

/-- The encodings that R46 reserves are refused: command nibbles 0xA to 0xF, channel nibbles 8 to 14, the
broadcast outside `wuall`, reads of 0x2, 0x3 and 0x7, other flexi fields and reset bytes, a bit shown as 0. -/
theorem test_reserved_words :
    ([0xA00000, 0xF00000, 0x080000, 0x2E0000, 0x0F0000, 0x3F0000, 0x110000, 0x410000, 0x408000, 0x400001,
      0x501000, 0x500040, 0x600001, 0x700100, 0x70C000, 0x800020, 0x901000, 0x907000, 0x908000, 0x000001].map
        (decodeTableWord 24)).all Option.isNone = true ∧
    ([0x08, 0x0F, 0x1F, 0x20, 0x30, 0x41, 0x70, 0xA0].map (decodeTableWord 8)).all Option.isNone = true := by
  decide

/-- No other length exists (R30), and a reply without a pending read has no reading (R38). -/
theorem test_lengths :
    given (decode .none []) = none ∧ given (decode .none [0, 0, 0, 0]) = none ∧ given (decode .none [0, 0]) = none := by
  decide

/-! ## One step of each operation -/

/-- V4 row 1. -/
theorem test_setmode :
    port (exec (.setmode .wuall) (idle .wo)) = some .done ∧ mode (exec (.setmode .wuall) (idle .wo)) = some .wuall := by
  decide
/-- V1 row 2. -/
theorem test_writeWo : port (exec (.writeWo 0 0xABC) (idle .wo)) = some (.write ⟨0x00, 0xAB, 0xC0⟩) := by decide
/-- V2 row 7. -/
theorem test_writeWo_both_causes : port (exec (.writeWo 9 65535) (idle .wo)) = some (.error .invalidValue) := by decide
/-- V1 row 3. -/
theorem test_writeWu1 : port (exec (.writeWu1 2 2048) (idle .wu1)) = some (.write ⟨0x32, 0x80, 0x00⟩) := by decide
/-- V2 row 5. -/
theorem test_writeWu1_all : port (exec (.writeWu1 15 100) (idle .wu1)) = some (.error .invalidChannel) := by decide
/-- V1 row 5. -/
theorem test_writeWuall_all : port (exec (.writeWuall 15 4095) (idle .wuall)) = some (.write ⟨0x2F, 0xFF, 0xF0⟩) := by decide
/-- V2 row 3. -/
theorem test_writeWuall_channel_14 : port (exec (.writeWuall 14 100) (idle .wuall)) = some (.error .invalidChannel) := by decide
/-- V4 row 5. -/
theorem test_update : port (exec (.update 12) (idle .wu1)) = some (.write ⟨0x10, 0x00, 0x00⟩) := by decide
/-- V3 row 9. -/
theorem test_power : port (exec (.power .pd1k 0x88) (idle .wo)) = some (.write ⟨0x40, 0x31, 0x00⟩) := by decide
/-- V3 row 6. -/
theorem test_power_low_channels : port (exec (.power .pd100k 0x07) (idle .wo)) = some (.write ⟨0x40, 0x40, 0xE0⟩) := by decide
/-- V5. -/
theorem test_clrcode : port (exec (.clrcode .disable) (idle .wo)) = some (.write ⟨0x50, 0x00, 0x30⟩) := by decide
/-- V6. -/
theorem test_ldacmask : port (exec (.ldacmask 0xA5) (idle .wo)) = some (.write ⟨0x60, 0xA5, 0x00⟩) := by decide
/-- V7. -/
theorem test_swreset : port (exec (.swreset .resetKeepHs) (idle .wo)) = some (.write ⟨0x70, 0x80, 0x00⟩) := by decide
/-- V8. -/
theorem test_refstatic_on : port (exec (.refstatic .on) (idle .wo)) = some (.write ⟨0x80, 0x00, 0x10⟩) := by decide
/-- V8. -/
theorem test_refstatic_off : port (exec (.refstatic .off) (idle .wo)) = some (.write ⟨0x80, 0x00, 0x00⟩) := by decide
/-- V8. -/
theorem test_refflexi_follow : port (exec (.refflexi .follow) (idle .wo)) = some (.write ⟨0x90, 0x40, 0x00⟩) := by decide
/-- V8. -/
theorem test_refflexi_static : port (exec (.refflexi .static) (idle .wo)) = some (.write ⟨0x90, 0x00, 0x00⟩) := by decide
/-- V10 row 2. -/
theorem test_getval :
    port (exec (.getval 2) (idle .wo)) = some (.select 0x02) ∧ latch (exec (.getval 2) (idle .wo)) = some .value := by
  decide

/-- V10 row 12. -/
theorem test_getdac_all :
    port (exec (.getdac 15) (idle .wo)) = some (.error .invalidChannel) ∧
    latch (exec (.getdac 15) (idle .wo)) = some .none := by decide

/-- V10 row 5. -/
theorem test_getdac : port (exec (.getdac 7) (idle .wo)) = some (.select 0x17) := by decide

/-- V10 row 6. -/
theorem test_getpwr :
    port (exec .getpwr (idle .wo)) = some (.select 0x40) ∧ latch (exec .getpwr (idle .wo)) = some .pwr := by decide

/-- V10 row 7. -/
theorem test_getclr :
    port (exec .getclr (idle .wo)) = some (.select 0x50) ∧ latch (exec .getclr (idle .wo)) = some .clr := by decide

/-- V10 row 8. -/
theorem test_getldac :
    port (exec .getldac (idle .wo)) = some (.select 0x60) ∧ latch (exec .getldac (idle .wo)) = some .ldac := by decide

/-- V10 row 9. -/
theorem test_getrefs :
    port (exec .getrefs (idle .wo)) = some (.select 0x80) ∧ latch (exec .getrefs (idle .wo)) = some .refs := by decide

/-- V10 row 10. -/
theorem test_getreff :
    port (exec .getreff (idle .wo)) = some (.select 0x90) ∧ latch (exec .getreff (idle .wo)) = some .reff := by decide

/-- V11 row 8. -/
theorem test_replyValue : port (exec (.replyValue 0x12 0x34) (pending .value)) = some (.reply (.value 0x123)) := by decide
/-- V9 row 5. -/
theorem test_replyPwr : port (exec (.replyPwr 0x3F 0x12) (pending .pwr)) = some (.reply (.power 1 (some .pd1k) 0x12)) := by decide
/-- V9 row 7: `rx[0][7]` set. -/
theorem test_replyPwr_unnamed : port (exec (.replyPwr 0x80 0x01) (pending .pwr)) = some (.reply (.power 4 none 0x01)) := by decide
/-- V12 row 5. -/
theorem test_replyClr : port (exec (.replyClr 0xFF 0xCF) (pending .clr)) = some (.reply (.clear 0 (some .zero))) := by decide
/-- V12 row 6. -/
theorem test_replyClr_disable : port (exec (.replyClr 0x12 0x3F) (pending .clr)) = some (.reply (.clear 3 (some .disable))) := by decide
/-- V12 row 8. -/
theorem test_replyLdac : port (exec (.replyLdac 0xA5 0x00) (pending .ldac)) = some (.reply (.ldac 0x00)) := by decide
/-- V12 row 12. -/
theorem test_replyRefs_off : port (exec (.replyRefs 0xFF 0xEF) (pending .refs)) = some (.reply (.refStatic 0 .off)) := by decide
/-- V12 row 13. -/
theorem test_replyRefs_on : port (exec (.replyRefs 0x12 0x3F) (pending .refs)) = some (.reply (.refStatic 1 .on)) := by decide
/-- V13 row 6. -/
theorem test_replyReff : port (exec (.replyReff 0xD5 0x00) (pending .reff)) = some (.reply (.refFlexi 5 (some .on))) := by decide
/-- V13 row 12. -/
theorem test_replyReff_unnamed : port (exec (.replyReff 0xF0 0x00) (pending .reff)) = some (.reply (.refFlexi 7 none)) := by decide
/-- V14 row 5. -/
theorem test_abort :
    port (exec .abort (pending .reff)) = some .silent ∧ latch (exec .abort (pending .reff)) = some .none := by decide

/-- Every reply ends the read (R80), valid or not. -/
theorem test_reply_ends_the_read :
    latch (exec (.replyPwr 0x80 0x01) (pending .pwr)) = some .none ∧
    latch (exec (.replyValue 0 0) (pending .value)) = some .none := by decide

/-! ## Steps -/

/-- V14 rows 1 to 4. -/
theorem test_refusals :
    refusal (step (facing .wo .pwr [.request ⟨1, 0, 0, 0, 0⟩])) = some .readPending ∧
    refusal (step (facing .wo .value [.request ⟨0, 0, 0, 0, 1⟩])) = some .readPending ∧
    refusal (step (facing .wo .value [.request ⟨11, 0, 0, 0, 0⟩])) = some .readPending ∧
    refusal (step (facing .wo .none [.reply 0 0])) = some .noReadPending := by decide

/-- V14 row 7. -/
theorem test_reset_event :
    step (facing .wu1 .clr [.reset]) = .next State.reset := rfl

/-- A host that presents nothing gets no step (R97), and an `opt` outside the list none (R47). -/
theorem test_no_step :
    refusal (step (idle .wo)) = some .noEvent ∧
    refusal (step (facing .wo .none [.request ⟨7, 0, 0, 0, 2⟩])) = some (.undecoded .unlistedOption) := by decide

/-- A table word placed for the next step runs as the first operation after reset: `GETREFF`, and
`WRITE C, 2048` in the row of `wu1`, which needs its mode. -/
theorem test_withFetchWord :
    port (step (State.reset.withFetchWord 8 0x90)) = some (.select 0x90) ∧
    port (step (State.reset.withFetchWord 24 0x328000)) = some (.write ⟨0x32, 0x80, 0x00⟩) ∧
    port (step (State.reset.withFetchWord 16 0x8000)) = some (.reply (.value 0x800)) := by decide

/-- The response fields of R39: V2 row 1 and V9 row 7. -/
theorem test_response_fields :
    (Response.error .invalidValue).err Config.rc = some 1 ∧ (Response.error .invalidChannel).txLen = some 0 ∧
    (Decoded.power 4 none 0x01).valid = false ∧ (Decoded.power 4 none 0x01).modeField = some 4 ∧
    (Decoded.power 4 none 0x01).maskField = some 0x01 := by decide

/-- Program P2: the eight codes, and variant b with `c5` = 5000. -/
def p2Codes : Vector CodeOperand 8 := #v[0x000, 0x101, 0x202, 0x303, 0x404, 0x505, 0x606, 0x707]

def p2CodesB : Vector CodeOperand 8 := #v[0x000, 0x101, 0x202, 0x303, 0x404, 5000, 0x606, 0x707]

theorem test_setall :
    setAllRequests Config.rc p2Codes = .ok
      [.request ⟨1, 0, 0x000, 0, 0⟩, .request ⟨1, 1, 0x101, 0, 0⟩, .request ⟨1, 2, 0x202, 0, 0⟩,
       .request ⟨1, 3, 0x303, 0, 0⟩, .request ⟨1, 4, 0x404, 0, 0⟩, .request ⟨1, 5, 0x505, 0, 0⟩,
       .request ⟨1, 6, 0x606, 0, 0⟩, .request ⟨1, 7, 0x707, 0, 0⟩] := rfl

theorem test_setall_invalid : setAllRequests Config.rc p2CodesB = .error .invalidValue := rfl

/-! ## Witnesses: for every statement with hypotheses, a state and operands that meet them all

Each clause that has hypotheses of its own gets its witness, at a bound of its range where it has one. -/

theorem witness_ResetEventRestoresResetState :
    (facing .wu1 .clr [.reset]).inbox = .reset :: [] := by decide

/-- The reset bytes that D9 sets aside: ordinals in the low bits. -/
def otherResetBytes : ResetMode → Byte
  | .reset => 0
  | .resetHs => 1
  | .resetKeepHs => 2

theorem witness_WireDecodesWhatItEncodes :
    (∀ a b : ResetMode, Config.rc.rstByte a = Config.rc.rstByte b → a = b) ∧
    (∀ a b : ResetMode, otherResetBytes a = otherResetBytes b → a = b) ∧
    (Instr.writeWuall 15 4095).wellFormed = true ∧ (Instr.writeWuall 15 4095).hasFrame = true ∧
    (Instr.swreset .resetHs).wellFormed = true ∧ (Instr.swreset .resetHs).hasFrame = true ∧
    (Instr.replyReff 0xFF 0xFF).wellFormed = true ∧ (Instr.replyReff 0xFF 0xFF).hasFrame = true := by
  refine ⟨?_, ?_, by decide⟩ <;> intro a b h <;> cases a <;> cases b <;> first | rfl | exact absurd h (by decide)

theorem witness_WireAcceptsOnlyEncodings :
    decodeWith Config.rc.rstByte .none [0x40, 0x7F, 0xE0] = .ok (.power .hiz 0xFF) ∧
    decodeWith otherResetBytes .none [0x70, 0x02, 0] = .ok (.swreset .resetKeepHs) ∧
    decodeWith otherResetBytes .none [0x07] = .ok (.getval 7) ∧
    decodeWith Config.rc.rstByte .reff [0xFF, 0xFF] = .ok (.replyReff 0xFF 0xFF) := ⟨rfl, rfl, rfl, rfl⟩

theorem witness_EncodingMatchesItsTableRow :
    (Instr.writeWuall 15 4095).wellFormed = true := by decide

/-- Two requests that differ in every operand that `GETPWR` does not name, and two for `WRITE`. -/
theorem witness_UnnamedOperandsAreIgnored :
    let r : Request := ⟨11, 0, 0, 0, 0⟩
    let r' : Request := ⟨11, 15, 0xFFFF, 0xFF, 3⟩
    let w : Request := ⟨1, 7, 4095, 0, 0⟩
    let w' : Request := ⟨1, 7, 4095, 0xFF, 3⟩
    (r.op = r'.op ∧ (r.op.toNat ∈ [1, 2, 9, 10] → r.ch = r'.ch) ∧ (r.op.toNat = 1 → r.code = r'.code) ∧
      (r.op.toNat ∈ [3, 5] → r.mask = r'.mask) ∧ (r.op.toNat ∈ [0, 3, 4, 6, 7, 8] → r.opt = r'.opt)) ∧
    (w.op = w'.op ∧ (w.op.toNat ∈ [1, 2, 9, 10] → w.ch = w'.ch) ∧ (w.op.toNat = 1 → w.code = w'.code) ∧
      (w.op.toNat ∈ [3, 5] → w.mask = w'.mask) ∧ (w.op.toNat ∈ [0, 3, 4, 6, 7, 8] → w.opt = w'.opt)) := by decide

/-- The four unlisted options, and a listed one, presented with no read pending. -/
theorem witness_UnlistedOptionsAreRefused :
    let at' (op : BitVec 4) (opt : BitVec 2) := facing .wo .none [.request ⟨op, 0, 0, 0, opt⟩]
    ((at' 0 3).rsel = .none ∧ (at' 0 3).inbox = .request ⟨0, 0, 0, 0, 3⟩ :: []) ∧
    refusal (step (at' 0 3)) = some (.undecoded .unlistedOption) ∧
    refusal (step (at' 6 3)) = some (.undecoded .unlistedOption) ∧
    refusal (step (at' 7 2)) = some (.undecoded .unlistedOption) ∧
    refusal (step (at' 7 3)) = some (.undecoded .unlistedOption) ∧ refusal (step (at' 7 1)) = none := by decide

theorem witness_PortCodesAreDistinctAndUnreserved :
    WriteUpdateMode.wuall.portCode = WriteUpdateMode.wuall.portCode ∧ ReadClass.reff.portCode = ReadClass.reff.portCode := by decide

theorem witness_StepRunsTheDecodedOperation :
    (facing .wuall .none [.request ⟨1, 15, 4095, 0, 0⟩]).inbox = .request ⟨1, 15, 4095, 0, 0⟩ :: [] ∧
    given (decodeEvent .wuall .none (.request ⟨1, 15, 4095, 0, 0⟩)) = some (.writeWuall 15 4095) := by decide

theorem witness_StepCompletesExactlyWhenAllowed :
    (facing .wo .none [.request ⟨9, 7, 0, 0, 0⟩]).inbox = .request ⟨9, 7, 0, 0, 0⟩ :: [] ∧
    Event.allowed .none (.request ⟨9, 7, 0, 0, 0⟩) = some .value ∧
    Event.allowed .none (.request ⟨9, 8, 0, 0, 0⟩) = some .none ∧ Event.allowed .reff (.reply 0 0) = some .none ∧
    Event.allowed .value (.request ⟨9, 7, 0, 0, 0⟩) = none ∧ Event.allowed .none (.reply 0 0) = none ∧
    Event.allowed .none (.request ⟨0, 0, 0, 0, 3⟩) = none := by decide

theorem witness_OverlappingTransactionsAreRefused :
    ((facing .wo .pwr [.request ⟨1, 0, 0, 0, 0⟩]).inbox = .request ⟨1, 0, 0, 0, 0⟩ :: [] ∧
      (facing .wo .pwr [.request ⟨1, 0, 0, 0, 0⟩]).rsel ≠ .none) ∧
    ((facing .wo .none [.reply 0 0]).inbox = .reply 0 0 :: [] ∧ (facing .wo .none [.reply 0 0]).rsel = .none) := by decide

theorem witness_DisciplinedHostIsNeverRefused :
    disciplined .none [.request ⟨0, 0, 0, 0, 2⟩, .request ⟨1, 15, 4096, 0, 0⟩, .request ⟨11, 0, 0, 0, 0⟩,
      .reply 0x40 0xA8, .request ⟨9, 8, 0, 0, 0⟩, .request ⟨15, 0, 0, 0, 0⟩, .abort, .reset] = true := by decide

theorem witness_StepKeepsPortAndLatchCoherent :
    port (step (facing .wo .none [.request ⟨10, 7, 0, 0, 0⟩])) = some (.select 0x17) := by decide

theorem witness_WriteModeChangesOnlyBySetmodeOrReset :
    mode (step (facing .wo .none [.request ⟨0, 0, 0, 0, 2⟩])) = some .wuall ∧ WriteUpdateMode.wuall ≠ .wo := by decide

/-- The clause of reset: whatever `WUM_RESET` is, some state holds another mode, and reset changes it. -/
theorem witness_WriteModeChangesOnlyBySetmodeOrReset_reset :
    ∃ m : WriteUpdateMode, mode (step (facing m .none [.reset])) = some Config.rc.wumReset ∧ Config.rc.wumReset ≠ m := by
  cases h : Config.rc.wumReset with
  | wo => exact ⟨.wu1, congrArg some h, by decide⟩
  | wu1 => exact ⟨.wo, congrArg some h, by decide⟩
  | wuall => exact ⟨.wo, congrArg some h, by decide⟩

theorem witness_WriteModeIsReadOnlyByWrite :
    (Instr.getval 7).rowMode = none ∧ ∀ m : WriteUpdateMode, Instr.getval 7 ≠ .setmode m := ⟨rfl, fun m => by cases m <;> decide⟩

theorem witness_EmittedBytesAreTheTableEncoding :
    ((Instr.writeWuall 15 4095).wellFormed = true ∧ (Instr.writeWuall 15 4095).selected .wuall .none = true) ∧
    ((Instr.replyPwr 0xFF 0xFF).wellFormed = true ∧ (Instr.replyPwr 0xFF 0xFF).selected .wo .pwr = true) := by decide

theorem witness_NoReservedEncodingIsEmitted :
    port (step (facing .wuall .none [.request ⟨1, 15, 4095, 0, 0⟩])) = some (.write ⟨0x2F, 0xFF, 0xF0⟩) := by decide

theorem witness_FrameLengthIsZeroOneOrThree :
    Response.done.txLen = some 0 ∧ (Response.select 0x40).txLen = some 1 ∧
    (Response.write ⟨0x40, 0, 0⟩).txLen = some 3 := by decide

theorem witness_InvalidValueExactlyForCodesAboveRange :
    port (exec (.writeWo 0 4096) (idle .wo)) = some (.error .invalidValue) ∧
    port (exec (.writeWo 0 4095) (idle .wo)) = some (.write ⟨0x00, 0xFF, 0xF0⟩) := by decide

theorem witness_InvalidChannelExactlyOutsideTheValidSet :
    port (exec (.writeWo 8 4095) (idle .wo)) = some (.error .invalidChannel) ∧
    port (exec (.writeWo 7 4095) (idle .wo)) = some (.write ⟨0x07, 0xFF, 0xF0⟩) ∧
    port (exec (.writeWuall 14 0) (idle .wuall)) = some (.error .invalidChannel) ∧
    port (exec (.writeWo 15 0) (idle .wo)) = some (.error .invalidChannel) ∧
    port (exec (.getval 8) (idle .wo)) = some (.error .invalidChannel) ∧
    port (exec (.getdac 8) (idle .wo)) = some (.error .invalidChannel) := by decide

theorem witness_ErrorsHaveNoEffect :
    port (exec (.getval 8) (idle .wuall)) = some (.error .invalidChannel) ∧
    port (exec (.writeWuall 0 4096) (idle .wuall)) = some (.error .invalidValue) := by decide

theorem witness_ErrorsExactlyForIllFormedOperands :
    (Instr.getval 8).selected .wo .none = true ∧ (Instr.writeWuall 15 4096).selected .wuall .none = true ∧
    (Instr.update 15).selected .wo .none = true := by decide

/-- A configuration with other port widths than D3 gives: a code of 20 bits and a channel of 6. -/
def widePorts : Config where
  codePortW := 20
  chPortW := 6
  wumReset := .wo

theorem witness_ValueCheckPrecedesChannelCheck :
    Config.rc.codeMax < (4096 : CodeOperand).toNat ∧ widePorts.codeMax < (65536 : BitVec 20).toNat ∧
    port (exec (.writeWo 8 4096) (idle .wo)) = some (.error .invalidValue) := by decide

/-- The one hypothesis on the state that the request operations share. -/
theorem witness_idle : (idle .wo).rsel = .none ∧ (idle .wu1).rsel = .none ∧ (idle .wuall).rsel = .none := by decide

theorem witness_SetmodeSetsTheWriteMode :
    (idle .wo).rsel = .none ∧ (⟨0, 15, 0xFFFF, 0xFF, 2⟩ : Request).op = 0 ∧ (⟨0, 15, 0xFFFF, 0xFF, 2⟩ : Request).opt = 2 ∧
    (⟨0, 0, 0, 0, 0⟩ : Request).opt = 0 ∧ (⟨0, 0, 0, 0, 1⟩ : Request).opt = 1 := by decide

theorem witness_WriteInModeWoCompletes :
    (idle .wo).rsel = .none ∧ (idle .wo).wum = .wo ∧ (7 : Nibble).toNat ≤ 7 ∧ (4095 : CodeOperand).toNat ≤ 4095 ∧
    (⟨1, 15, 0xFFFF, 0xFF, 0⟩ : Request).op = 1 := by decide

theorem witness_WriteInModeWu1Completes :
    (idle .wu1).rsel = .none ∧ (idle .wu1).wum = .wu1 ∧ (7 : Nibble).toNat ≤ 7 ∧ (4095 : CodeOperand).toNat ≤ 4095 ∧
    (⟨1, 15, 0xFFFF, 0xFF, 0⟩ : Request).op = 1 := by decide

theorem witness_WriteInModeWuallCompletes :
    (idle .wuall).rsel = .none ∧ (idle .wuall).wum = .wuall ∧
    ((7 : Nibble).toNat ≤ 7 ∨ (7 : Nibble) = Config.rc.chAll) ∧ ((15 : Nibble).toNat ≤ 7 ∨ (15 : Nibble) = Config.rc.chAll) ∧
    (4095 : CodeOperand).toNat ≤ 4095 ∧
    (⟨1, 15, 0xFFFF, 0xFF, 0⟩ : Request).op = 1 := by decide

theorem witness_CodeFieldRoundTrips :
    (4095 : CodeOperand).toNat ≤ 4095 ∧ encValue Config.rc 15 .wuall 4095 = .ok ⟨0x2F, 0xFF, 0xF0⟩ ∧
    (4095 : BitVec 20).toNat ≤ 4095 ∧ encValue widePorts 7 .wo 4095 = .ok ⟨0x07, 0xFF, 0xF0⟩ :=
  ⟨by decide, rfl, by decide, rfl⟩

theorem witness_UpdateEmitsTheCommitFrame :
    (idle .wuall).rsel = .none ∧ port (exec (.update 15) (idle .wuall)) = some (.write ⟨0x10, 0, 0⟩) ∧
    (⟨2, 15, 0xFFFF, 0xFF, 0⟩ : Request).op = 2 := by decide

/-- Both outcomes: a broadcast after `SETMODE wuall`, and after `SETMODE wo`. -/
theorem witness_WriteAfterSetmodeUsesTheNewMode :
    let s (m : WriteUpdateMode) := facing .wu1 .none (encodeEvent (.setmode m) :: writeRequest 15 4095 :: [])
    (s .wuall).rsel = .none ∧ (4095 : CodeOperand).toNat ≤ 4095 ∧
    ((15 : Nibble).toNat ≤ 7 ∨ (15 : Nibble) = Config.rc.chAll) ∧
    ((7 : Nibble).toNat ≤ 7 ∨ (7 : Nibble) = Config.rc.chAll) ∧
    (s .wuall).inbox = encodeEvent (.setmode .wuall) :: writeRequest 15 4095 :: [] ∧
    (s .wo).inbox = encodeEvent (.setmode .wo) :: writeRequest 15 4095 :: [] := by decide

/-- P2 under `wu1`. -/
theorem witness_SetAllEmitsEightFramesInOrder :
    (facing .wu1 .none (writesFrom 0 p2Codes.toList)).rsel = .none ∧
    setAllRequests Config.rc p2Codes = .ok (writesFrom 0 p2Codes.toList) ∧
    (facing .wu1 .none (writesFrom 0 p2Codes.toList)).inbox = writesFrom 0 p2Codes.toList ++ [] := ⟨rfl, rfl, rfl⟩

theorem witness_PowerEmitsTheExactBitLaw :
    (idle .wo).rsel = .none ∧ port (exec (.power .hiz 0xFF) (idle .wo)) = some (.write ⟨0x40, 0x7F, 0xE0⟩) ∧
    (⟨3, 15, 0xFFFF, 0xFF, 3⟩ : Request).op = 3 := by decide

theorem witness_PowerFrameDeterminesModeAndMask :
    encPower Config.rc .hiz 0xFF = encPower Config.rc .hiz 0xFF := rfl

theorem witness_ClrcodeEmitsItsFrame :
    (idle .wo).rsel = .none ∧ port (exec (.clrcode .mid) (idle .wo)) = some (.write ⟨0x50, 0, 0x10⟩) ∧
    (⟨4, 15, 0xFFFF, 0xFF, 3⟩ : Request).op = 4 := by decide

theorem witness_LdacmaskEmitsItsFrame :
    (idle .wo).rsel = .none ∧ (⟨5, 15, 0, 0x80, 3⟩ : Request).op = 5 := by decide

theorem witness_SwresetEmitsItsFrame :
    (idle .wo).rsel = .none ∧ Config.rc.rstByte .resetHs = Config.rc.rstByte .resetHs ∧
    (⟨6, 15, 0xFFFF, 0xFF, 0⟩ : Request).op = 6 ∧ (⟨6, 0, 0, 0, 0⟩ : Request).opt = 0 ∧
    (⟨6, 0, 0, 0, 1⟩ : Request).opt = 1 ∧ (⟨6, 0, 0, 0, 2⟩ : Request).opt = 2 := by decide

theorem witness_RefstaticEmitsItsFrame :
    (idle .wu1).rsel = .none ∧
    (⟨7, 15, 0xFFFF, 0xFF, 0⟩ : Request).op = 7 ∧ (⟨7, 0, 0, 0, 0⟩ : Request).opt = 0 ∧
    (⟨7, 0, 0, 0, 1⟩ : Request).opt = 1 := by decide

theorem witness_RefflexiEmitsItsFrame :
    (idle .wo).rsel = .none ∧ (⟨8, 0, 0, 0, 3⟩ : Request).op = 8 := by decide

theorem witness_GetvalSelectsTheInputRegister :
    (idle .wo).rsel = .none ∧ (7 : Nibble).toNat ≤ 7 ∧ 7 < (8 : Nibble).toNat ∧ (⟨9, 15, 0, 0, 0⟩ : Request).op = 9 := by decide

theorem witness_GetdacSelectsTheDacRegister :
    (idle .wo).rsel = .none ∧ (7 : Nibble).toNat ≤ 7 ∧ 7 < (8 : Nibble).toNat ∧ (⟨10, 15, 0, 0, 0⟩ : Request).op = 10 := by decide

theorem witness_GlobalGettersSelectTheirRegisters :
    (idle .wo).rsel = .none ∧ (⟨11, 0, 0, 0, 0⟩ : Request).op = 11 ∧ (⟨12, 0, 0, 0, 0⟩ : Request).op = 12 ∧
    (⟨13, 0, 0, 0, 0⟩ : Request).op = 13 ∧ (⟨14, 0, 0, 0, 0⟩ : Request).op = 14 ∧ (⟨15, 0, 0, 0, 0⟩ : Request).op = 15 := by decide

theorem witness_ValueReplyDecodes :
    (pending .value).rsel = .value := by decide

theorem witness_PowerReplyDecodes :
    (pending .pwr).rsel = .pwr := by decide

theorem witness_ClearCodeReplyDecodes :
    (pending .clr).rsel = .clr := by decide

theorem witness_LdacReplyDecodes :
    (pending .ldac).rsel = .ldac := by decide

theorem witness_StaticReferenceReplyDecodes :
    (pending .refs).rsel = .refs := by decide

theorem witness_FlexiReferenceReplyDecodes :
    (pending .reff).rsel = .reff := by decide

/-- For each class two replies that differ in every ignored bit. -/
theorem witness_IgnoredReplyBitsChangeNothing :
    ((0xAB : Byte) = 0xAB ∧ (0xC0 : Byte) &&& 0xF0 = 0xCF &&& 0xF0) ∧
    ((0x40 : Byte) &&& 0xE0 = 0x5F &&& 0xE0 ∧ (0xA8 : Byte) = 0xA8) ∧ (0x10 : Byte) &&& 0x30 = 0xDF &&& 0x30 ∧
    (0xA5 : Byte) = 0xA5 ∧ (0x10 : Byte) &&& 0x10 = 0xFF &&& 0x10 ∧ (0x50 : Byte) &&& 0x70 = 0xDF &&& 0x70 := by decide

theorem witness_SelectThenReplyDecodesByItsClass :
    (Instr.getval 7).selectsClass ≠ .none ∧ (Instr.getval 7).wellFormed = true ∧
    (facing .wo .none [encodeEvent (.getval 7), .reply 0x12 0x34]).rsel = .none ∧
    (facing .wo .none [encodeEvent (.getval 7), .reply 0x12 0x34]).inbox =
      encodeEvent (.getval 7) :: .reply 0x12 0x34 :: [] := by decide

theorem witness_AbortedReadTakesNoLateReply :
    Instr.getreff.selectsClass ≠ .none ∧ Instr.getreff.wellFormed = true ∧
    (facing .wo .none [encodeEvent .getreff, .abort, .reply 0x50 0]).rsel = .none ∧
    (facing .wo .none [encodeEvent .getreff, .abort, .reply 0x50 0]).inbox =
      encodeEvent .getreff :: .abort :: .reply 0x50 0 :: [] := by decide

/-- The default configuration reads the three fields where it writes them, and its codes are distinct. -/
theorem witness_OptionFieldsReturnFromAnEcho :
    (Config.rc.clrRdShift = 4 ∧ ∀ a b : ClearCode, Config.rc.ccCode a = Config.rc.ccCode b → a = b) ∧
    Config.rc.refsRdShift = 4 ∧
    (Config.rc.reffRdShift = 4 ∧
      ∀ a b : ReferenceFlexiMode, flexiField Config.rc a = flexiField Config.rc b → a = b) := by
  refine ⟨⟨rfl, ?_⟩, rfl, rfl, ?_⟩ <;> intro a b h <;> cases a <;> cases b <;>
    first | rfl | exact absurd h (by decide)

theorem witness_MasksDoNotReturnFromAnEcho :
    Config.rc.pmShift = 5 ∧ Config.rc.pwrRdShift = 5 ∧
    ∀ a b : PowerMode, Config.rc.pmCode a = Config.rc.pmCode b → a = b := by
  refine ⟨rfl, rfl, ?_⟩
  intro a b h; cases a <;> cases b <;> first | rfl | exact absurd h (by decide)

/-- Each outcome on `err`: nothing raised, both errors, and an operation without `err`. -/
theorem witness_ErrNamesTheOutcome :
    port (exec (.setmode .wo) (idle .wo)) = some .done ∧ port (exec .getpwr (idle .wo)) = some (.select 0x40) ∧
    (Response.select 0x40).tx ≠ [] ∧ (Response.select 0x40).err Config.rc = some 0 ∧
    port (exec (.writeWo 0 4096) (idle .wo)) = some (.error .invalidValue) ∧
    port (exec (.getval 8) (idle .wo)) = some (.error .invalidChannel) ∧
    port (exec .abort (pending .pwr)) = some .silent := by decide

theorem witness_PortReadsBackEveryOperation :
    (Instr.writeWuall 15 65535).selected .wuall .none = true ∧ (Instr.refstatic .off).selected .wo .none = true ∧
    (Instr.replyReff 0xFF 0xFF).selected .wo .reff = true ∧ Instr.abort.selected .wu1 .pwr = true := by decide

end Sys2Proof.Tests.Slice0
end

