-- ==== Sys2Proof/Proofs/StateElements.lean ====
section
/-! PROOFS. The state elements and the two ports (spec/10_state.md): what every operation, and so every
step, does with `WUM`, `RSEL` and the response. -/

namespace Sys2Proof.Machine

/-! ## Every operation is one of seven shared meanings -/

/-- The operation `i` means `f`, one of the shared operations of `Machine/Ops.lean`, with what is known of
the arguments that `i` gives it: a select is of a register that the command-space map of R24 knows. -/
inductive RunsAs : Instr → (State → Answer) → Prop
  | setmode (m : WriteUpdateMode) : RunsAs (.setmode m) (fun s => asRequest s (setWriteMode m s))
  | write (row : WriteUpdateMode) (ch : Nibble) (code : CodeOperand) :
      RunsAs (writeRow row ch code) (writeCode row ch code)
  | frame {i : Instr} (f : WriteFrame) : RunsAs i (writeFrame f)
  | channel {i : Instr} (opc ch : Nibble) (hopc : opc = Config.rc.rdOpIn ∨ opc = Config.rc.rdOpDac) :
      RunsAs i (selectChannel opc ch)
  | global {i : Instr} (opc : Nibble) (cls : ReadClass) (hpending : cls ≠ .none)
      (hmap : selectByteClass (encSelectGlobal opc) = cls) : RunsAs i (selectGlobal opc cls)
  | reply {i : Instr} (row : ReadClass) (d : Decoded) : RunsAs i (takeReply row d)
  | abort : RunsAs .abort dropRead

theorem exec_runsAs (i : Instr) : RunsAs i (exec i) := by
  cases i with
  | setmode m => exact .setmode m
  | writeWo ch code => exact .write .wo ch code
  | writeWu1 ch code => exact .write .wu1 ch code
  | writeWuall ch code => exact .write .wuall ch code
  | update ch => exact .frame _
  | power pm mask => exact .frame _
  | clrcode cc => exact .frame _
  | ldacmask mask => exact .frame _
  | swreset rm => exact .frame _
  | refstatic m => exact .frame _
  | refflexi f => exact .frame _
  | getval ch => exact .channel _ ch (.inl rfl)
  | getdac ch => exact .channel _ ch (.inr rfl)
  | getpwr => exact .global _ _ (by decide) (by decide)
  | getclr => exact .global _ _ (by decide) (by decide)
  | getldac => exact .global _ _ (by decide) (by decide)
  | getrefs => exact .global _ _ (by decide) (by decide)
  | getreff => exact .global _ _ (by decide) (by decide)
  | replyValue rx0 rx1 => exact .reply _ _
  | replyPwr rx0 rx1 => exact .reply _ _
  | replyClr rx0 rx1 => exact .reply _ _
  | replyLdac rx0 rx1 => exact .reply _ _
  | replyRefs rx0 rx1 => exact .reply _ _
  | replyReff rx0 rx1 => exact .reply _ _
  | abort => exact .abort

variable {i : Instr} {f : State → Answer} {s t : State}

/-! ## Latch and response port agree (R11) -/

theorem coherent_respond_of_not_select {r : Response} (hr : ∀ b0, r ≠ .select b0) (hs : s.rsel = .none) :
    (s.respond r).coherent = true := by
  cases r with
  | select b0 => exact absurd rfl (hr b0)
  | silent | done | write f | error k | reply d => exact decide_eq_true hs

theorem coherent_latch_select {cls : ReadClass} {b0 : Byte} (hpending : cls ≠ .none)
    (hmap : selectByteClass b0 = cls) : ((s.latch cls).respond (.select b0)).coherent = true := by
  simp [State.coherent, hpending, hmap]

/-- The select byte of a channel that passes the check addresses a value register, input or DAC (R24). -/
theorem selectByteClass_of_encSelectChannel {opc ch : Nibble} {b0 : Byte}
    (hopc : opc = Config.rc.rdOpIn ∨ opc = Config.rc.rdOpDac)
    (hb : encSelectChannel Config.rc opc ch = .ok b0) : selectByteClass b0 = .value := by
  rw [encSelectChannel_rc] at hb
  split at hb
  · cases hb
    have hch : ch.toNat ≤ 7 := ‹_›
    obtain rfl | rfl := hopc
    · revert ch; decide
    · revert ch; decide
  · cases hb

theorem RunsAs.coherent (h : RunsAs i f) (ht : f s = .next t) : t.coherent = true := by
  cases h with
  | setmode m =>
    obtain ⟨hs, hb⟩ := asRequest_next ht
    cases hb
    exact coherent_respond_of_not_select (by simp) hs
  | write row ch code =>
    obtain ⟨hs, -, ⟨f, -, rfl⟩ | ⟨k, -, rfl⟩⟩ := writeCode_next ht
    · exact coherent_respond_of_not_select (by simp) hs
    · exact coherent_respond_of_not_select (by simp) hs
  | frame f =>
    obtain ⟨hs, rfl⟩ := writeFrame_next ht
    exact coherent_respond_of_not_select (by simp) hs
  | channel opc ch hopc =>
    obtain ⟨hs, ⟨b0, hb, rfl⟩ | ⟨k, -, rfl⟩⟩ := selectChannel_next ht
    · exact coherent_latch_select (by simp) (selectByteClass_of_encSelectChannel hopc hb)
    · exact coherent_respond_of_not_select (by simp) hs
  | global opc cls hpending hmap =>
    obtain ⟨-, rfl⟩ := selectGlobal_next ht
    exact coherent_latch_select hpending hmap
  | reply row d =>
    obtain ⟨-, -, rfl⟩ := takeReply_next ht
    exact coherent_respond_of_not_select (by simp) rfl
  | abort =>
    cases ht
    exact coherent_respond_of_not_select (by simp) rfl

/-- Settles O14: a step resets, which leaves no read pending, or runs an operation, and each of the
shared meanings leaves latch and port in agreement. -/
theorem stepKeepsPortAndLatchCoherent : Obligations.StepKeepsPortAndLatchCoherent := by
  intro s t h
  obtain ⟨ev, rest, -, ⟨-, rfl⟩ | ⟨i, -, hx⟩⟩ := step_next h
  · rfl
  · exact (exec_runsAs i).coherent hx

/-! ## Who writes `WUM` (R10) -/

/-- An operation that changes `WUM` is the `SETMODE` of the new mode. -/
theorem eq_setmode_of_exec_wum_ne (h : exec i s = .next t) (hne : t.wum ≠ s.wum) : i = .setmode t.wum := by
  obtain ⟨m, rfl, -, rfl⟩ | ⟨f, -, rfl⟩ | ⟨k, -, rfl⟩ | ⟨b0, cls, -, -, rfl⟩ | ⟨d, -, rfl⟩ | ⟨-, rfl⟩ :=
    exec_next h
  · rfl
  all_goals exact absurd rfl hne

/-- Settles O15: a step resets, or it runs the operation of its event, which changes `WUM` only as a
`SETMODE`. -/
theorem writeModeChangesOnlyBySetmodeOrReset : Obligations.WriteModeChangesOnlyBySetmodeOrReset := by
  intro s t h hne
  obtain ⟨ev, rest, hinbox, ⟨hev, rfl⟩ | ⟨i, hdecode, hx⟩⟩ := step_next h
  · exact ⟨ev, rest, hinbox, .inr ⟨hev, rfl⟩⟩
  · have hi : i = .setmode t.wum := eq_setmode_of_exec_wum_ne hx hne
    exact ⟨ev, rest, hinbox, .inl (hi ▸ hdecode)⟩

/-! ## Who reads `WUM` (R10) -/

theorem writeRow_rowMode (row : WriteUpdateMode) (ch : Nibble) (code : CodeOperand) :
    (writeRow row ch code).rowMode = some row := by
  cases row <;> rfl

/-- The gate of R106 does not read `WUM`. -/
theorem asRequest_setMode (m : WriteUpdateMode) (body : Answer) :
    asRequest (s.setMode m) (answerWithMode m body) = answerWithMode m (asRequest s body) := by
  by_cases hs : s.rsel = .none
  · rw [asRequest_idle hs, asRequest_idle (s := s.setMode m) hs]
  · rw [asRequest_pending hs, asRequest_pending (s := s.setMode m) hs]; rfl

theorem selectChannel_setMode (m : WriteUpdateMode) (opc ch : Nibble) :
    selectChannel opc ch (s.setMode m) = answerWithMode m (selectChannel opc ch s) := by
  refine Eq.trans ?_ (asRequest_setMode m _)
  unfold selectChannel
  cases encSelectChannel Config.rc opc ch with
  | ok b0 => rfl
  | error k => rfl

theorem takeReply_setMode (m : WriteUpdateMode) (row : ReadClass) (d : Decoded) :
    takeReply row d (s.setMode m) = answerWithMode m (takeReply row d s) := by
  unfold takeReply
  rw [setMode_rsel]
  split
  · rfl
  · split
    · rfl
    · rfl

theorem RunsAs.setMode (h : RunsAs i f) (hwrite : i.rowMode = none) (hset : ∀ m', i ≠ .setmode m')
    (m : WriteUpdateMode) : f (s.setMode m) = answerWithMode m (f s) := by
  cases h with
  | setmode m' => exact absurd rfl (hset m')
  | write row ch code => rw [writeRow_rowMode] at hwrite; cases hwrite
  | frame f => exact asRequest_setMode m (emit3 f s)
  | channel opc ch => exact selectChannel_setMode m opc ch
  | global opc cls => exact asRequest_setMode m (emit1 (encSelectGlobal opc) cls s)
  | reply row d => exact takeReply_setMode m row d
  | abort => rfl

/-- Settles O16: of the shared meanings only those of the `WRITE` rows and of `SETMODE` do not commute
with a replaced `WUM`. -/
theorem writeModeIsReadOnlyByWrite : Obligations.WriteModeIsReadOnlyByWrite :=
  fun i m _ hwrite hset => (exec_runsAs i).setMode hwrite hset m

/-! ## Nobody reads the last response (R12) -/

/-- Each shared meaning puts its own response on the port, and none reads the one that stood there. -/
theorem RunsAs.respond (h : RunsAs i f) (r : Response) : f (s.respond r) = f s := by
  cases h with
  | setmode m => rfl
  | write row ch code => rfl
  | frame f => rfl
  | channel opc ch => rfl
  | global opc cls => rfl
  | reply row d => rfl
  | abort => rfl

theorem notEnabled_respond (r : Response) (ev : Event) : notEnabled (s.respond r) ev = notEnabled s ev := by
  cases ev <;> rfl

theorem perform_respond (r : Response) (ev : Event) : perform ev (s.respond r) = perform ev s := by
  have hexec (i : Instr) : exec i (s.respond r) = exec i s := (exec_runsAs i).respond r
  have hreset : takeReset (s.respond r) = takeReset s := rfl
  simp only [perform, notEnabled_respond, respond_wum, respond_rsel, hexec, hreset]

/-- Settles O17: taking the event leaves the last response where it is, and what the event then does does
not read it. -/
theorem noStepReadsTheLastResponse : Obligations.NoStepReadsTheLastResponse := by
  intro s r
  change step (s.respond r) = step s
  cases hinbox : s.inbox with
  | nil => rw [step_noEvent hinbox, step_noEvent (s := s.respond r) hinbox]
  | cons ev rest =>
    rw [step_event hinbox, step_event (s := s.respond r) hinbox]
    exact perform_respond (s := s.present rest) r ev

end Sys2Proof.Machine
end

