-- ==== Sys2Proof/Proofs/Memory.lean ====
section
/-! PROOFS. The command space as the port shows it (spec/20_memory.md): how many bytes a frame has. -/

namespace Sys2Proof.Machine

/-! ## The frame on the port and its length (R23, R39) -/

theorem WriteFrame.length_bytes (f : WriteFrame) : f.bytes.length = 3 := rfl

/-- The port carries a whole write frame, a select byte, or nothing; this holds also where no `tx_len`
goes with it. -/
theorem Response.length_tx_mem (r : Response) : r.tx.length ∈ [0, 1, 3] := by
  cases r with
  | write f => simp [Response.tx, WriteFrame.length_bytes]
  | select b0 => simp [Response.tx]
  | silent | done | error k | reply d => simp [Response.tx]

/-- `tx_len` counts the frame bytes: its 2 bits hold the length without loss. -/
theorem Response.toNat_txLen {r : Response} {n : BitVec 2} (h : r.txLen = some n) :
    n.toNat = r.tx.length := by
  cases r with
  | write f => cases h; exact f.length_bytes.symm
  | select b0 => cases h; rfl
  | done | error k => cases h; rfl
  | silent | reply d => cases h

/-- Settles O20: `tx_len` counts the frame bytes, and of those there are 0, 1 or 3. -/
theorem frameLengthIsZeroOneOrThree : Obligations.FrameLengthIsZeroOneOrThree := by
  intro r n h
  have hlen : n.toNat = r.tx.length := Response.toNat_txLen h
  exact ⟨hlen, hlen ▸ r.length_tx_mem⟩

end Sys2Proof.Machine
end

/-! PROOFS. The two layers of encoding (spec/30_encoding.md): the bytes on the wire, both ways and against
the opcode table, and the codes of the request port. -/

namespace Sys2Proof

open Machine

/-! ## The fields of a byte (R8, R31, R33, R36, R37) -/

theorem commandNibble_append (op n : Nibble) : commandNibble (op ++ n) = op :=
  BitVec.extractLsb'_append_eq_left

theorem channelNibble_append (op n : Nibble) : channelNibble (op ++ n) = n :=
  BitVec.extractLsb'_append_eq_right

/-- The first byte of a frame, put together from its two nibbles. -/
theorem append_eq_of_nibbles {b0 : Byte} {op n : Nibble} (hop : (commandNibble b0).toNat = op.toNat)
    (hn : channelNibble b0 = n) : op ++ n = b0 := by
  rw [← BitVec.eq_of_toNat_eq hop, ← hn]
  exact BitVec.extractLsb'_append_extractLsb'

/-- The second payload byte of a value write is its high nibble over a zero nibble (R33). -/
theorem valueByte2_of_fields {b2 : Byte} (h : b2.extractLsb' 0 4 = 0#4) : b2.extractLsb' 4 4 ++ 0#4 = b2 := by
  rw [← h]
  exact BitVec.extractLsb'_append_extractLsb'

/-- The code field of R33 as a number. -/
theorem wireCode_toNat (b1 b2 : Byte) : (wireCode b1 b2).toNat = b1.toNat * 16 + b2.toNat / 16 := by
  have h2 := b2.isLt
  refine (append_toNat _ _).trans ?_
  rw [append_toNat, BitVec.extractLsb'_toNat, Nat.shiftRight_eq_div_pow, BitVec.toNat_ofNat]
  omega

theorem wireCode_toNat_le (b1 b2 : Byte) : (wireCode b1 b2).toNat ≤ 4095 := by
  have h1 := b1.isLt
  have h2 := b2.isLt
  rw [wireCode_toNat]
  omega

theorem wireCode_high (b1 b2 : Byte) : (wireCode b1 b2).extractLsb' 4 8 = b1 := by
  have h1 := b1.isLt
  have h2 := b2.isLt
  apply BitVec.eq_of_toNat_eq
  rw [BitVec.extractLsb'_toNat, wireCode_toNat, Nat.shiftRight_eq_div_pow]
  omega

theorem wireCode_low (b1 b2 : Byte) : (wireCode b1 b2).extractLsb' 0 4 = b2.extractLsb' 4 4 :=
  BitVec.extractLsb'_append_eq_right

/-- The code field loses nothing of a code in range. -/
theorem wireCode_of_code {code : CodeOperand} (h : code.toNat ≤ 4095) :
    wireCode (code.extractLsb' 4 8) (code.extractLsb' 0 4 ++ 0#4) = code := by
  apply BitVec.eq_of_toNat_eq
  rw [wireCode_toNat, append_toNat, BitVec.extractLsb'_toNat, BitVec.extractLsb'_toNat,
    Nat.shiftRight_eq_div_pow, Nat.shiftRight_eq_div_pow, BitVec.toNat_ofNat]
  omega

/-- The first payload byte of a power frame: a zero bit, the mode, the mask's bits 7:3 (R36). -/
theorem powerByte1_fields (code : BitVec 2) (hi : BitVec 5) :
    (0#1 ++ code ++ hi).extractLsb' 7 1 = 0#1 ∧ (0#1 ++ code ++ hi).extractLsb' 5 2 = code ∧
      (0#1 ++ code ++ hi).extractLsb' 0 5 = hi := by
  revert code hi; decide

theorem powerByte1_of_fields {b1 : Byte} (h : b1.extractLsb' 7 1 = 0#1) :
    0#1 ++ b1.extractLsb' 5 2 ++ b1.extractLsb' 0 5 = b1 := by
  revert b1; decide

/-- The second payload byte of a power frame is the mask's bits 2:0 over five zero bits (R36). -/
theorem powerByte2_of_fields {b2 : Byte} (h : b2.extractLsb' 0 5 = 0#5) : b2.extractLsb' 5 3 ++ 0#5 = b2 := by
  rw [← h]
  exact BitVec.extractLsb'_append_extractLsb'

/-- The two parts that a power frame cuts a mask into are the mask. -/
theorem mask_of_parts (mask : Mask) : mask.extractLsb' 3 5 ++ mask.extractLsb' 0 3 = mask :=
  BitVec.extractLsb'_append_extractLsb'

/-- The payload byte of a clear-code frame: the code at bits 5:4 and nothing else (R37). -/
theorem clearByte_fields (code : BitVec 2) :
    (0#2 ++ code ++ 0#4).extractLsb' 6 2 = 0#2 ∧ (0#2 ++ code ++ 0#4).extractLsb' 4 2 = code ∧
      (0#2 ++ code ++ 0#4).extractLsb' 0 4 = 0#4 := by
  revert code; decide

theorem clearByte_of_fields {b2 : Byte} (hhigh : b2.extractLsb' 6 2 = 0#2) (hlow : b2.extractLsb' 0 4 = 0#4) :
    0#2 ++ b2.extractLsb' 4 2 ++ 0#4 = b2 := by
  revert b2; decide

theorem PowerMode.ofOpt_portCode (pm : PowerMode) : PowerMode.ofOpt pm.portCode = pm := by
  cases pm <;> rfl

theorem PowerMode.portCode_ofOpt (opt : BitVec 2) : (PowerMode.ofOpt opt).portCode = opt := by
  revert opt; decide

theorem ClearCode.ofOpt_portCode (cc : ClearCode) : ClearCode.ofOpt cc.portCode = cc := by
  cases cc <;> rfl

theorem ClearCode.portCode_ofOpt (opt : BitVec 2) : (ClearCode.ofOpt opt).portCode = opt := by
  revert opt; decide

/-! ## The three rows of `WRITE` as one (R35, R51) -/

/-- The channels that a `WRITE` row takes: the ordinals, and in the row of `wuall` also `CH_ALL` (R51). -/
abbrev writesChannel (m : WriteUpdateMode) (ch : Nibble) : Prop :=
  ch.toNat ≤ 7 ∨ ch = Config.rc.chAll ∧ m = .wuall

theorem wellFormed_writeRow {m : WriteUpdateMode} {ch : Nibble} {code : CodeOperand} :
    (writeRow m ch code).wellFormed = true ↔ writesChannel m ch ∧ code.toNat ≤ 4095 := by
  cases m <;> simp [writeRow, Instr.wellFormed, writesChannel]

theorem encodeWith_writeRow (rst : ResetMode → Byte) (m : WriteUpdateMode) (ch : Nibble) (code : CodeOperand) :
    encodeWith rst (writeRow m ch code) = encodeValueWrite (Config.rc.writeOp m) ch code := by
  cases m <;> rfl

theorem decodeWriteFrame_writeOp (rst : ResetMode → Byte) (m : WriteUpdateMode) (ch : Nibble) (b1 b2 : Byte) :
    decodeWriteFrame rst (Config.rc.writeOp m ++ ch) b1 b2 =
      whenWire (decide (writesChannel m ch) && decide (b2.extractLsb' 0 4 = 0)) (writeRow m ch (wireCode b1 b2)) := by
  unfold decodeWriteFrame
  rw [commandNibble_append, channelNibble_append]
  cases m <;> simp [Config.writeOp, writesChannel, writeRow]

/-! ## Decoding what is encoded (R41) -/

section
variable (rst : ResetMode → Byte)

theorem whenWire_eq_ok {legal : Bool} {i j : Instr} : whenWire legal i = .ok j ↔ legal = true ∧ i = j := by
  cases legal <;> simp [whenWire]

theorem decode_writeRow {m : WriteUpdateMode} {ch : Nibble} {code : CodeOperand}
    (h : (writeRow m ch code).wellFormed = true) :
    decodeWith rst .none (encodeWith rst (writeRow m ch code)) = .ok (writeRow m ch code) := by
  obtain ⟨hch, hcode⟩ := wellFormed_writeRow.mp h
  rw [encodeWith_writeRow]
  refine (decodeWriteFrame_writeOp rst m ch _ _).trans ?_
  rw [wireCode_of_code hcode, BitVec.extractLsb'_append_eq_right]
  exact whenWire_eq_ok.mpr ⟨by simp [hch], rfl⟩

theorem decode_power (pm : PowerMode) (mask : Mask) :
    decodeWith rst .none (encodeWith rst (.power pm mask)) = .ok (.power pm mask) := by
  obtain ⟨hzero, hcode, hhigh⟩ := powerByte1_fields pm.portCode (mask.extractLsb' 3 5)
  change whenWire _ _ = _
  rw [hzero, hcode, hhigh, BitVec.extractLsb'_append_eq_left, BitVec.extractLsb'_append_eq_right,
    PowerMode.ofOpt_portCode, mask_of_parts]
  rfl

theorem decode_clrcode (cc : ClearCode) :
    decodeWith rst .none (encodeWith rst (.clrcode cc)) = .ok (.clrcode cc) := by
  obtain ⟨hhigh, hcode, hlow⟩ := clearByte_fields cc.portCode
  change whenWire _ _ = _
  rw [hhigh, hcode, hlow, ClearCode.ofOpt_portCode]
  rfl

theorem decode_swreset (hrst : ∀ a b : ResetMode, rst a = rst b → a = b) (rm : ResetMode) :
    decodeWith rst .none (encodeWith rst (.swreset rm)) = .ok (.swreset rm) := by
  change (match ResetMode.ofByte rst (rst rm) with
    | some rm => whenWire _ (.swreset rm)
    | none => .error .reservedEncoding) = _
  rw [ofByte_of_distinct hrst]
  rfl

theorem decodeSelectFrame_channel {ch : Nibble} (h : ch.toNat ≤ 7) :
    decodeSelectFrame (Config.rc.rdOpIn ++ ch) = .ok (.getval ch) ∧
      decodeSelectFrame (Config.rc.rdOpDac ++ ch) = .ok (.getdac ch) := by
  simp [decodeSelectFrame, commandNibble_append, channelNibble_append, whenWire_eq_ok, h]

/-- Settles O4: each family's frame, read back by the pattern that its command nibble names. -/
theorem wireDecodesWhatItEncodes : Obligations.WireDecodesWhatItEncodes := by
  intro rst i hrst hwf hframe
  cases i with
  | setmode m => cases hframe
  | writeWo ch code => exact decode_writeRow rst (m := .wo) hwf
  | writeWu1 ch code => exact decode_writeRow rst (m := .wu1) hwf
  | writeWuall ch code => exact decode_writeRow rst (m := .wuall) hwf
  | update ch => rfl
  | power pm mask => exact decode_power rst pm mask
  | clrcode cc => exact decode_clrcode rst cc
  | ldacmask mask => rfl
  | swreset rm => exact decode_swreset rst hrst rm
  | refstatic m => cases m <;> rfl
  | refflexi f => cases f <;> rfl
  | getval ch => exact (decodeSelectFrame_channel (of_decide_eq_true hwf)).1
  | getdac ch => exact (decodeSelectFrame_channel (of_decide_eq_true hwf)).2
  | getpwr | getclr | getldac | getrefs | getreff => rfl
  | replyValue rx0 rx1 | replyPwr rx0 rx1 | replyClr rx0 rx1 | replyLdac rx0 rx1 | replyRefs rx0 rx1
  | replyReff rx0 rx1 => rfl
  | abort => cases hframe

/-! ## Encoding what is decoded (R41, R46) -/

/-- What acceptance of the bytes `bytes` as the operation `i` has to mean. -/
def Encodes (i : Instr) (bytes : List Byte) : Prop := encodeWith rst i = bytes ∧ i.wellFormed = true

variable {rst} {b0 b1 b2 : Byte} {i : Instr}

theorem encodes_writeRow (m : WriteUpdateMode) (hop : (commandNibble b0).toNat = (Config.rc.writeOp m).toNat)
    (hch : writesChannel m (channelNibble b0)) (hlow : b2.extractLsb' 0 4 = 0#4) :
    Encodes rst (writeRow m (channelNibble b0) (wireCode b1 b2)) [b0, b1, b2] := by
  refine ⟨?_, wellFormed_writeRow.mpr ⟨hch, wireCode_toNat_le b1 b2⟩⟩
  rw [encodeWith_writeRow, encodeValueWrite, append_eq_of_nibbles hop rfl, wireCode_high, wireCode_low,
    valueByte2_of_fields hlow]

/-- A global operation whose pattern has the payload bytes `b1`, `b2`: its channel nibble is 0 (R31). -/
theorem encodes_global (op : Nibble) (hop : (commandNibble b0).toNat = op.toNat) (hn : channelNibble b0 = 0)
    (henc : encodeWith rst i = [op ++ 0#4, b1, b2]) (hwf : i.wellFormed = true) : Encodes rst i [b0, b1, b2] :=
  ⟨append_eq_of_nibbles hop hn ▸ henc, hwf⟩

/-- The common pattern: the channel nibble and one payload byte are 0. -/
theorem encodes_of_whenWire_global (op : Nibble) (hop : (commandNibble b0).toNat = op.toNat) {p : Byte} {j : Instr}
    (h : whenWire (decide (channelNibble b0 = 0) && decide (p = 0)) j = .ok i)
    (henc : p = 0 → encodeWith rst j = [op ++ 0#4, b1, b2]) (hwf : j.wellFormed = true) :
    Encodes rst i [b0, b1, b2] := by
  simp only [whenWire_eq_ok, Bool.and_eq_true, decide_eq_true_eq] at h
  obtain ⟨⟨hn, hp⟩, rfl⟩ := h
  exact encodes_global op hop hn (henc hp) hwf

theorem encodes_power (hop : (commandNibble b0).toNat = 4) (hn : channelNibble b0 = 0)
    (hhigh : b1.extractLsb' 7 1 = 0#1) (hlow : b2.extractLsb' 0 5 = 0#5) :
    Encodes rst (.power (PowerMode.ofOpt (b1.extractLsb' 5 2)) (b1.extractLsb' 0 5 ++ b2.extractLsb' 5 3))
      [b0, b1, b2] := by
  refine encodes_global 4 hop hn ?_ rfl
  rw [encodeWith, PowerMode.portCode_ofOpt, BitVec.extractLsb'_append_eq_left,
    BitVec.extractLsb'_append_eq_right, powerByte1_of_fields hhigh, powerByte2_of_fields hlow]
  rfl

theorem encodes_clrcode (hop : (commandNibble b0).toNat = 5) (hn : channelNibble b0 = 0)
    (hhigh : b2.extractLsb' 6 2 = 0#2) (hlow : b2.extractLsb' 0 4 = 0#4) :
    Encodes rst (.clrcode (ClearCode.ofOpt (b2.extractLsb' 4 2))) [b0, 0, b2] := by
  refine encodes_global 5 hop hn ?_ rfl
  rw [encodeWith, ClearCode.portCode_ofOpt, clearByte_of_fields hhigh hlow]
  rfl

/-- All that the write-frame decoder accepts, by command nibble. -/
theorem encodes_of_decodeWriteFrame (h : decodeWriteFrame rst b0 b1 b2 = .ok i) : Encodes rst i [b0, b1, b2] := by
  simp only [decodeWriteFrame] at h
  split at h
  case h_1 hop =>
    simp only [whenWire_eq_ok, Bool.and_eq_true, decide_eq_true_eq] at h
    obtain ⟨⟨hch, hlow⟩, rfl⟩ := h
    exact encodes_writeRow .wo hop (.inl hch) hlow
  case h_2 hop =>
    simp only [whenWire_eq_ok, Bool.and_eq_true, decide_eq_true_eq] at h
    obtain ⟨⟨⟨hn, rfl⟩, rfl⟩, rfl⟩ := h
    exact encodes_global 1 hop hn rfl rfl
  case h_3 hop =>
    simp only [whenWire_eq_ok, Bool.and_eq_true, Bool.or_eq_true, decide_eq_true_eq] at h
    obtain ⟨⟨hch, hlow⟩, rfl⟩ := h
    exact encodes_writeRow .wuall hop (hch.imp_right fun hall => ⟨hall, rfl⟩) hlow
  case h_4 hop =>
    simp only [whenWire_eq_ok, Bool.and_eq_true, decide_eq_true_eq] at h
    obtain ⟨⟨hch, hlow⟩, rfl⟩ := h
    exact encodes_writeRow .wu1 hop (.inl hch) hlow
  case h_5 hop =>
    simp only [whenWire_eq_ok, Bool.and_eq_true, decide_eq_true_eq] at h
    obtain ⟨⟨⟨hn, hhigh⟩, hlow⟩, rfl⟩ := h
    exact encodes_power hop hn hhigh hlow
  case h_6 hop =>
    simp only [whenWire_eq_ok, Bool.and_eq_true, decide_eq_true_eq] at h
    obtain ⟨⟨⟨⟨hn, rfl⟩, hhigh⟩, hlow⟩, rfl⟩ := h
    exact encodes_clrcode hop hn hhigh hlow
  case h_7 hop => exact encodes_of_whenWire_global 6 hop h (by rintro rfl; rfl) rfl
  case h_8 hop =>
    split at h
    case h_1 hrm =>
      obtain rfl := ofByte_some hrm
      exact encodes_of_whenWire_global 7 hop h (by rintro rfl; rfl) rfl
    case h_2 => cases h
  case h_9 hop =>
    split at h
    case h_1 hb2 =>
      obtain rfl : b2 = 0x00 := BitVec.eq_of_toNat_eq hb2
      exact encodes_of_whenWire_global 8 hop h (by rintro rfl; rfl) rfl
    case h_2 hb2 =>
      obtain rfl : b2 = 0x10 := BitVec.eq_of_toNat_eq hb2
      exact encodes_of_whenWire_global 8 hop h (by rintro rfl; rfl) rfl
    case h_3 => cases h
  case h_10 hop =>
    split at h
    case h_1 hb1 =>
      obtain rfl : b1 = 0x40 := BitVec.eq_of_toNat_eq hb1
      exact encodes_of_whenWire_global 9 hop h (by rintro rfl; rfl) rfl
    case h_2 hb1 =>
      obtain rfl : b1 = 0x50 := BitVec.eq_of_toNat_eq hb1
      exact encodes_of_whenWire_global 9 hop h (by rintro rfl; rfl) rfl
    case h_3 hb1 =>
      obtain rfl : b1 = 0x60 := BitVec.eq_of_toNat_eq hb1
      exact encodes_of_whenWire_global 9 hop h (by rintro rfl; rfl) rfl
    case h_4 hb1 =>
      obtain rfl : b1 = 0x00 := BitVec.eq_of_toNat_eq hb1
      exact encodes_of_whenWire_global 9 hop h (by rintro rfl; rfl) rfl
    case h_5 => cases h
  case h_11 => cases h

theorem encodes_select (op : Nibble) (hop : (commandNibble b0).toNat = op.toNat)
    (henc : encodeWith rst i = [op ++ channelNibble b0]) (hwf : i.wellFormed = true) : Encodes rst i [b0] :=
  ⟨append_eq_of_nibbles hop rfl ▸ henc, hwf⟩

/-- The select of a global register: its channel nibble is 0 (R32). -/
theorem encodes_of_whenWire_select (op : Nibble) (hop : (commandNibble b0).toNat = op.toNat) {j : Instr}
    (h : whenWire (decide (channelNibble b0 = 0)) j = .ok i) (henc : encodeWith rst j = [op ++ 0#4])
    (hwf : j.wellFormed = true) : Encodes rst i [b0] := by
  simp only [whenWire_eq_ok, decide_eq_true_eq] at h
  obtain ⟨hn, rfl⟩ := h
  exact encodes_select op hop (hn ▸ henc) hwf

/-- All that the select-frame decoder accepts, by command nibble. -/
theorem encodes_of_decodeSelectFrame (h : decodeSelectFrame b0 = .ok i) : Encodes rst i [b0] := by
  simp only [decodeSelectFrame] at h
  split at h
  case h_1 hop =>
    obtain ⟨hch, rfl⟩ := whenWire_eq_ok.mp h
    exact encodes_select 0 hop rfl hch
  case h_2 hop =>
    obtain ⟨hch, rfl⟩ := whenWire_eq_ok.mp h
    exact encodes_select 1 hop rfl hch
  case h_3 hop => exact encodes_of_whenWire_select 4 hop h rfl rfl
  case h_4 hop => exact encodes_of_whenWire_select 5 hop h rfl rfl
  case h_5 hop => exact encodes_of_whenWire_select 6 hop h rfl rfl
  case h_6 hop => exact encodes_of_whenWire_select 8 hop h rfl rfl
  case h_7 hop => exact encodes_of_whenWire_select 9 hop h rfl rfl
  case h_8 => cases h

theorem encodes_of_replyRow {rsel : ReadClass} {rx0 rx1 : Byte} (h : replyRow rsel rx0 rx1 = some i) :
    Encodes rst i [rx0, rx1] := by
  cases rsel with
  | none => cases h
  | value | pwr | clr | ldac | refs | reff => cases h; exact ⟨rfl, rfl⟩

end

/-- Settles O5: the length tells the three formats apart, and each has its own decoder. -/
theorem wireAcceptsOnlyEncodings : Obligations.WireAcceptsOnlyEncodings := by
  intro rst rsel bytes i h
  unfold decodeWith at h
  split at h
  case h_1 b0 => exact encodes_of_decodeSelectFrame h
  case h_2 rx0 rx1 =>
    split at h
    case h_1 hrow => cases h; exact encodes_of_replyRow hrow
    case h_2 => cases h
  case h_3 b0 b1 b2 => exact encodes_of_decodeWriteFrame h
  case h_4 => cases h


/-! ## Against the opcode table (R31, spec/opcode_table.json) -/

/-- Bitwise and of two numbers, the last byte apart from the rest. -/
theorem mul_add_and_mul_add (n m : Nat) (a b : Byte) :
    (n * 256 + a.toNat) &&& (m * 256 + b.toNat) = (n &&& m) * 256 + (a &&& b).toNat := by
  have ha := a.isLt
  have hb := b.isLt
  have hhigh : ((n * 256 + a.toNat) &&& (m * 256 + b.toNat)) / 2 ^ 8 = n &&& m := by
    rw [Nat.and_div_two_pow]
    congr 1 <;> omega
  have hlow : ((n * 256 + a.toNat) &&& (m * 256 + b.toNat)) % 2 ^ 8 = (a &&& b).toNat := by
    rw [Nat.and_mod_two_pow, BitVec.toNat_and]
    congr 1 <;> omega
  omega

/-- A mask acts on a write frame byte by byte. -/
theorem frameNumber_and (b0 b1 b2 m0 m1 m2 : Byte) :
    frameNumber [b0, b1, b2] &&& frameNumber [m0, m1, m2] = frameNumber [b0 &&& m0, b1 &&& m1, b2 &&& m2] := by
  simp only [frameNumber, List.foldl_cons, List.foldl_nil, mul_add_and_mul_add, Nat.and_self]

section
variable (rst : ResetMode → Byte)

/-- The bytes of an operation have its row's length and, under the row's mask, the row's match. -/
def MatchesRow (i : Instr) : Prop :=
  (encodeWith rst i).length = i.tableRow.bytes ∧
    frameNumber (encodeWith rst i) &&& i.tableRow.mask = i.tableRow.pattern

/-- A row whose mask is the bytes `m0`, `m1`, `m2` and whose match is `p0`, `p1`, `p2`. -/
theorem matchesRow_of_bytes {i : Instr} {b0 b1 b2 : Byte} (m0 m1 m2 p0 p1 p2 : Byte)
    (henc : encodeWith rst i = [b0, b1, b2])
    (hrow : i.tableRow = ⟨3, frameNumber [p0, p1, p2], frameNumber [m0, m1, m2]⟩)
    (h0 : b0 &&& m0 = p0) (h1 : b1 &&& m1 = p1) (h2 : b2 &&& m2 = p2) : MatchesRow rst i := by
  rw [MatchesRow, henc, hrow, ← h0, ← h1, ← h2]
  exact ⟨rfl, frameNumber_and b0 b1 b2 m0 m1 m2⟩

theorem matchesRow_writeRow (m : WriteUpdateMode) (ch : Nibble) (code : CodeOperand) :
    MatchesRow rst (writeRow m ch code) := by
  refine matchesRow_of_bytes rst 0xF0 0x00 0x0F (Config.rc.writeOp m ++ 0#4) 0x00 0x00
    (encodeWith_writeRow rst m ch code) (by cases m <;> rfl) ?_ BitVec.and_zero ?_
  · have h : ∀ op ch : Nibble, op ++ ch &&& 0xF0#8 = op ++ 0#4 := by decide
    exact h _ ch
  · have h : ∀ low : BitVec 4, low ++ 0#4 &&& 0x0F#8 = 0x00#8 := by decide
    exact h _

theorem matchesRow_power (pm : PowerMode) (mask : Mask) : MatchesRow rst (.power pm mask) := by
  refine matchesRow_of_bytes rst 0xFF 0x80 0x1F 0x40 0x00 0x00 rfl rfl rfl ?_ ?_
  · have h : ∀ (code : BitVec 2) (hi : BitVec 5), 0#1 ++ code ++ hi &&& 0x80#8 = 0x00#8 := by decide
    exact h _ _
  · have h : ∀ lo : BitVec 3, lo ++ 0#5 &&& 0x1F#8 = 0x00#8 := by decide
    exact h _

/-- A select row whose mask leaves the channel nibble open (R32). -/
theorem matchesRow_channel {i : Instr} {op ch : Nibble} (henc : encodeWith rst i = [op ++ ch])
    (hrow : i.tableRow = ⟨1, (op ++ 0#4).toNat, 0xF0⟩) : MatchesRow rst i := by
  have h : ∀ op ch : Nibble, frameNumber [op ++ ch] &&& 0xF0 = (op ++ 0#4).toNat := by decide
  rw [MatchesRow, henc, hrow]
  exact ⟨rfl, h op ch⟩

/-- A select row whose mask fixes the whole byte. -/
theorem matchesRow_global {i : Instr} {b0 : Byte} (henc : encodeWith rst i = [b0])
    (hrow : i.tableRow = ⟨1, b0.toNat, 0xFF⟩) : MatchesRow rst i := by
  have h : ∀ b0 : Byte, frameNumber [b0] &&& 0xFF = b0.toNat := by decide
  rw [MatchesRow, henc, hrow]
  exact ⟨rfl, h b0⟩

end

/-- Settles O6: family by family, the bits that the row fixes are those that the pattern shows. -/
theorem encodingMatchesItsTableRow : Obligations.EncodingMatchesItsTableRow := by
  intro rst i _
  change MatchesRow rst i
  cases i with
  | setmode m | abort => exact ⟨rfl, Nat.and_zero _⟩
  | writeWo ch code => exact matchesRow_writeRow rst .wo ch code
  | writeWu1 ch code => exact matchesRow_writeRow rst .wu1 ch code
  | writeWuall ch code => exact matchesRow_writeRow rst .wuall ch code
  | update ch => exact matchesRow_of_bytes rst 0xFF 0xFF 0xFF 0x10 0x00 0x00 rfl rfl rfl rfl rfl
  | power pm mask => exact matchesRow_power rst pm mask
  | clrcode cc =>
    exact matchesRow_of_bytes rst 0xFF 0xFF 0xCF 0x50 0x00 0x00 rfl rfl rfl rfl (by cases cc <;> rfl)
  | ldacmask mask => exact matchesRow_of_bytes rst 0xFF 0x00 0xFF 0x60 0x00 0x00 rfl rfl rfl BitVec.and_zero rfl
  | swreset rm => exact matchesRow_of_bytes rst 0xFF 0x00 0xFF 0x70 0x00 0x00 rfl rfl rfl BitVec.and_zero rfl
  | refstatic m =>
    cases m <;> exact matchesRow_of_bytes rst 0xFF 0xFF 0xEF 0x80 0x00 0x00 rfl rfl rfl rfl rfl
  | refflexi f =>
    cases f <;> exact matchesRow_of_bytes rst 0xFF 0x8F 0xFF 0x90 0x00 0x00 rfl rfl rfl rfl rfl
  | getval ch => exact matchesRow_channel rst (op := 0) rfl rfl
  | getdac ch => exact matchesRow_channel rst (op := 1) rfl rfl
  | getpwr | getclr | getldac | getrefs | getreff => exact matchesRow_global rst rfl rfl
  | replyValue rx0 rx1 | replyPwr rx0 rx1 | replyClr rx0 rx1 | replyLdac rx0 rx1 | replyRefs rx0 rx1
  | replyReff rx0 rx1 => exact ⟨rfl, Nat.and_zero _⟩


/-! ## Words of the opcode table (R41) -/

/-- Settles O3: the decoder computes, so each word is decoded by evaluation. -/
theorem tableWordsDecodeToTheirOperations : Obligations.TableWordsDecodeToTheirOperations := by
  unfold Obligations.TableWordsDecodeToTheirOperations
  decide

/-! ## The request port (R39, R40, R47) -/

/-- Settles O7: op by op, the operands that the decoded operation takes are those that R40 names. -/
theorem unnamedOperandsAreIgnored : Obligations.UnnamedOperandsAreIgnored := by
  intro wum r r' hop hch hcode hmask hopt
  unfold decodeRequest
  rw [← hop]
  generalize r.op.toNat = op at hch hcode hmask hopt
  split
  case h_1 | h_5 | h_7 | h_8 | h_9 => rw [hopt (by decide)]
  case h_2 => rw [hch (by decide), hcode rfl]
  case h_3 | h_10 | h_11 => rw [hch (by decide)]
  case h_4 => rw [hopt (by decide), hmask (by decide)]
  case h_6 => rw [hmask (by decide)]
  all_goals rfl

theorem WriteUpdateMode.isSome_ofOpt (opt : BitVec 2) : (ofOpt opt).isSome = decide (opt.toNat ≤ 2) := by
  revert opt; decide

theorem ResetMode.isSome_ofOpt (opt : BitVec 2) : (ofOpt opt).isSome = decide (opt.toNat ≤ 2) := by
  revert opt; decide

theorem ReferenceStaticMode.isSome_ofOpt (opt : BitVec 2) : (ofOpt opt).isSome = decide (opt.toNat ≤ 1) := by
  revert opt; decide

/-- The port gives no operation for a request exactly where its `opt` value is unlisted (R47). -/
theorem decodeRequest_eq_error {wum : WriteUpdateMode} {r : Request} {e : PortError} :
    decodeRequest wum r = .error e ↔ r.optListed = false ∧ e = .unlistedOption := by
  simp only [decodeRequest]
  split
  case h_1 hop =>
    have hlisted : r.optListed = (WriteUpdateMode.ofOpt r.opt).isSome := by
      simp [Request.optListed, hop, WriteUpdateMode.isSome_ofOpt]
    rw [hlisted]
    cases WriteUpdateMode.ofOpt r.opt <;> simp [eq_comm]
  case h_7 hop =>
    have hlisted : r.optListed = (ResetMode.ofOpt r.opt).isSome := by
      simp [Request.optListed, hop, ResetMode.isSome_ofOpt]
    rw [hlisted]
    cases ResetMode.ofOpt r.opt <;> simp [eq_comm]
  case h_8 hop =>
    have hlisted : r.optListed = (ReferenceStaticMode.ofOpt r.opt).isSome := by
      simp [Request.optListed, hop, ReferenceStaticMode.isSome_ofOpt]
    rw [hlisted]
    cases ReferenceStaticMode.ofOpt r.opt <;> simp [eq_comm]
  all_goals simp [Request.optListed, *]

/-- The four unlisted values (R47). -/
theorem Request.optListed_eq_false {r : Request} : r.optListed = false ↔
    (r.op = 0 ∧ r.opt = 3) ∨ (r.op = 6 ∧ r.opt = 3) ∨ (r.op = 7 ∧ (r.opt = 2 ∨ r.opt = 3)) := by
  have h : ∀ op opt, (Request.mk op 0 0 0 opt).optListed = false ↔
      (op = 0 ∧ opt = 3) ∨ (op = 6 ∧ opt = 3) ∨ (op = 7 ∧ (opt = 2 ∨ opt = 3)) := by decide
  exact h r.op r.opt

/-- No operation of RC is refused for its option: that is the port's refusal alone. -/
theorem exec_ne_undecoded (i : Instr) (s : State) (e : PortError) : exec i s ≠ .refused (.undecoded e) := by
  intro h
  obtain ⟨hr, -⟩ | ⟨hr, -⟩ | ⟨hr, -⟩ | ⟨hr, -⟩ := exec_refused h
  all_goals cases hr

theorem step_undecoded_iff {s : State} {r : Request} {rest : List Event} (hs : s.rsel = .none)
    (hinbox : s.inbox = .request r :: rest) (e : PortError) :
    step s = .refused (.undecoded e) ↔ decodeRequest s.wum r = .error e := by
  rw [step_event hinbox]
  cases hd : decodeRequest s.wum r with
  | ok i =>
    rw [perform_request_decoded (s := s.present rest) hs hd]
    simp [exec_ne_undecoded]
  | error e' =>
    rw [perform_request_unlisted (s := s.present rest) hs hd]
    simp

/-- Settles O8: with no read pending the step is refused so exactly if the port gives no operation. -/
theorem unlistedOptionsAreRefused : Obligations.UnlistedOptionsAreRefused := by
  intro s r rest hs hinbox
  rw [step_undecoded_iff hs hinbox, decodeRequest_eq_error, Request.optListed_eq_false]
  simp

/-- Settles O57: the laws of the port, one for each constructor. -/
theorem portReadsBackEveryOperation : Obligations.PortReadsBackEveryOperation := by
  intro i wum rsel h
  cases i with
  | setmode m => exact Laws.PortRoundTrip.setmode m wum rsel h
  | writeWo ch code => exact Laws.PortRoundTrip.writeWo ch code wum rsel h
  | writeWu1 ch code => exact Laws.PortRoundTrip.writeWu1 ch code wum rsel h
  | writeWuall ch code => exact Laws.PortRoundTrip.writeWuall ch code wum rsel h
  | update ch => exact Laws.PortRoundTrip.update ch wum rsel h
  | power pm mask => exact Laws.PortRoundTrip.power pm mask wum rsel h
  | clrcode cc => exact Laws.PortRoundTrip.clrcode cc wum rsel h
  | ldacmask mask => exact Laws.PortRoundTrip.ldacmask mask wum rsel h
  | swreset rm => exact Laws.PortRoundTrip.swreset rm wum rsel h
  | refstatic m => exact Laws.PortRoundTrip.refstatic m wum rsel h
  | refflexi f => exact Laws.PortRoundTrip.refflexi f wum rsel h
  | getval ch => exact Laws.PortRoundTrip.getval ch wum rsel h
  | getdac ch => exact Laws.PortRoundTrip.getdac ch wum rsel h
  | getpwr => exact Laws.PortRoundTrip.getpwr wum rsel h
  | getclr => exact Laws.PortRoundTrip.getclr wum rsel h
  | getldac => exact Laws.PortRoundTrip.getldac wum rsel h
  | getrefs => exact Laws.PortRoundTrip.getrefs wum rsel h
  | getreff => exact Laws.PortRoundTrip.getreff wum rsel h
  | replyValue rx0 rx1 => exact Laws.PortRoundTrip.replyValue rx0 rx1 wum rsel h
  | replyPwr rx0 rx1 => exact Laws.PortRoundTrip.replyPwr rx0 rx1 wum rsel h
  | replyClr rx0 rx1 => exact Laws.PortRoundTrip.replyClr rx0 rx1 wum rsel h
  | replyLdac rx0 rx1 => exact Laws.PortRoundTrip.replyLdac rx0 rx1 wum rsel h
  | replyRefs rx0 rx1 => exact Laws.PortRoundTrip.replyRefs rx0 rx1 wum rsel h
  | replyReff rx0 rx1 => exact Laws.PortRoundTrip.replyReff rx0 rx1 wum rsel h
  | abort => exact Laws.PortRoundTrip.abort wum rsel h

/-! ## Ignored reply bits (R45) -/

/-! Each decode rule reads its field and nothing else: it is the same on the reply with the other bits at 0. -/

theorem decodeValue_masked (rx0 rx1 : Byte) : decodeValue rx0 (rx1 &&& 0xF0) = decodeValue rx0 rx1 := by
  have h : ∀ b : Byte, (b &&& 0xF0).toNat >>> 4 = b.toNat >>> 4 := by decide
  rw [decodeValue, h, decodeValue]

theorem decodePower_masked (rx0 rx1 : Byte) :
    decodePower Config.rc (rx0 &&& 0xE0) rx1 = decodePower Config.rc rx0 rx1 := by
  have h : ∀ b : Byte, (b &&& 0xE0).toNat >>> Config.rc.pwrRdShift = b.toNat >>> Config.rc.pwrRdShift := by decide
  rw [decodePower, h, decodePower]

theorem decodeClear_masked (rx1 : Byte) : decodeClear Config.rc (rx1 &&& 0x30) = decodeClear Config.rc rx1 := by
  have h : ∀ b : Byte, (b &&& 0x30).toNat >>> Config.rc.clrRdShift &&& 0x3 = b.toNat >>> Config.rc.clrRdShift &&& 0x3 := by
    decide
  rw [decodeClear, h, decodeClear]

theorem decodeRefStatic_masked (rx1 : Byte) :
    decodeRefStatic Config.rc (rx1 &&& 0x10) = decodeRefStatic Config.rc rx1 := by
  have h : ∀ b : Byte, (b &&& 0x10).toNat >>> Config.rc.refsRdShift &&& 0x1 = b.toNat >>> Config.rc.refsRdShift &&& 0x1 := by
    decide
  rw [decodeRefStatic, h, decodeRefStatic]

theorem decodeRefFlexi_masked (rx0 : Byte) :
    decodeRefFlexi Config.rc (rx0 &&& 0x70) = decodeRefFlexi Config.rc rx0 := by
  have h : ∀ b : Byte, (b &&& 0x70).toNat >>> Config.rc.reffRdShift &&& 0x7 = b.toNat >>> Config.rc.reffRdShift &&& 0x7 := by
    decide
  rw [decodeRefFlexi, h, decodeRefFlexi]

/-- Settles O50: each decode rule is a function of the masked reply, and the answer reads
no more of the reply than its decoded fields. -/
theorem ignoredReplyBitsChangeNothing : Obligations.IgnoredReplyBitsChangeNothing := by
  intro a0 a1 b0 b1 s
  refine ⟨?_, ?_, ?_, ?_, ?_, ?_⟩
  · rintro rfl h
    exact congrArg (takeReply .value · s) (by rw [← decodeValue_masked a0 a1, h, decodeValue_masked])
  · rintro h rfl
    exact congrArg (takeReply .pwr · s) (by rw [← decodePower_masked a0 a1, h, decodePower_masked])
  · intro h
    exact congrArg (takeReply .clr · s) (by rw [← decodeClear_masked a1, h, decodeClear_masked])
  · rintro rfl
    rfl
  · intro h
    exact congrArg (takeReply .refs · s) (by rw [← decodeRefStatic_masked a1, h, decodeRefStatic_masked])
  · intro h
    exact congrArg (takeReply .reff · s) (by rw [← decodeRefFlexi_masked a0, h, decodeRefFlexi_masked])

/-! ## What RC emits is what the patterns show (R23, R41) -/

/-- The answer is a next state whose port carries the bytes `bytes`. -/
def Emits (a : Answer) (bytes : List Byte) : Prop := ∃ t : State, a = .next t ∧ t.resp.tx = bytes

section
variable {s : State}

theorem emits_setWriteMode (hs : s.rsel = .none) (m : WriteUpdateMode) :
    Emits (asRequest s (setWriteMode m s)) [] :=
  ⟨_, asRequest_idle hs _, rfl⟩

theorem emits_writeFrame (hs : s.rsel = .none) {f : WriteFrame} {bytes : List Byte} (hf : f.bytes = bytes) :
    Emits (writeFrame f s) bytes :=
  ⟨_, asRequest_idle hs _, hf⟩

theorem emits_writeCode (hs : s.rsel = .none) {m : WriteUpdateMode} (hm : s.wum = m) {ch : Nibble}
    {code : CodeOperand} (hwf : (writeRow m ch code).wellFormed = true) :
    Emits (writeCode m ch code s) (encodeValueWrite (Config.rc.writeOp m) ch code) := by
  obtain ⟨hch, hcode⟩ := wellFormed_writeRow.mp hwf
  subst hm
  rw [writeCode, asRequest_idle hs, if_pos rfl, encValue_rc, if_neg (Nat.not_lt.mpr hcode), if_pos hch]
  exact ⟨_, rfl, rfl⟩

theorem emits_selectChannel (hs : s.rsel = .none) (opc : Nibble) {ch : Nibble} (hch : ch.toNat ≤ 7) :
    Emits (selectChannel opc ch s) [opc ++ ch] := by
  rw [selectChannel, asRequest_idle hs, encSelectChannel_rc, if_pos hch]
  exact ⟨_, rfl, rfl⟩

theorem emits_selectGlobal (hs : s.rsel = .none) (opc : Nibble) (cls : ReadClass) :
    Emits (selectGlobal opc cls s) [opc ++ 0#4] := by
  rw [selectGlobal, asRequest_idle hs, encSelectGlobal_eq]
  exact ⟨_, rfl, rfl⟩

theorem emits_takeReply {row : ReadClass} (hrow : row ≠ .none) (hs : s.rsel = row) (d : Decoded) :
    Emits (takeReply row d s) [] :=
  ⟨_, takeReply_here hrow hs d, rfl⟩

end

theorem bytes_encPower (pm : PowerMode) (mask : Mask) :
    (encPower Config.rc pm mask).bytes = encode (.power pm mask) := by
  have hcode : Config.rc.pmCode pm = pm.portCode := by cases pm <;> rfl
  rw [encPower, hcode, powerLow_eq, powerHigh_eq]
  rfl

theorem bytes_encClearCode (cc : ClearCode) : (encClearCode Config.rc cc).bytes = encode (.clrcode cc) := by
  have hcode : Config.rc.ccCode cc = cc.portCode := by cases cc <;> rfl
  rw [encClearCode, hcode, optionByte_eq]
  rfl

theorem selected_iff {i : Instr} {wum : WriteUpdateMode} {rsel : ReadClass} :
    i.selected wum rsel = true ↔ i.rowMode.getD wum = wum ∧ i.rowClass.getD rsel = rsel := by
  simp

/-- Settles O18: each shared operation emits, at the operands of its row, the bytes of the row's pattern. -/
theorem emittedBytesAreTheTableEncoding : Obligations.EmittedBytesAreTheTableEncoding := by
  intro i s hwf hsel
  obtain ⟨hmode, hclass⟩ := selected_iff.mp hsel
  change Emits (exec i s) _
  cases i with
  | setmode m => exact emits_setWriteMode hclass.symm m
  | writeWo ch code => exact emits_writeCode (m := .wo) hclass.symm hmode.symm hwf
  | writeWu1 ch code => exact emits_writeCode (m := .wu1) hclass.symm hmode.symm hwf
  | writeWuall ch code => exact emits_writeCode (m := .wuall) hclass.symm hmode.symm hwf
  | update ch => exact emits_writeFrame hclass.symm rfl
  | power pm mask => exact emits_writeFrame hclass.symm (bytes_encPower pm mask)
  | clrcode cc => exact emits_writeFrame hclass.symm (bytes_encClearCode cc)
  | ldacmask mask => exact emits_writeFrame hclass.symm rfl
  | swreset rm => exact emits_writeFrame hclass.symm rfl
  | refstatic m => exact emits_writeFrame hclass.symm (by cases m <;> rfl)
  | refflexi f => exact emits_writeFrame hclass.symm (by cases f <;> rfl)
  | getval ch => exact emits_selectChannel hclass.symm _ (of_decide_eq_true hwf)
  | getdac ch => exact emits_selectChannel hclass.symm _ (of_decide_eq_true hwf)
  | getpwr | getclr | getldac | getrefs | getreff => exact emits_selectGlobal hclass.symm _ _
  | replyValue rx0 rx1 | replyPwr rx0 rx1 | replyClr rx0 rx1 | replyLdac rx0 rx1 | replyRefs rx0 rx1
  | replyReff rx0 rx1 => exact emits_takeReply (by nofun) hclass.symm _
  | abort => exact ⟨_, rfl, rfl⟩

/-! ## No reserved encoding is emitted (R44, R46) -/

section
variable (rst : ResetMode → Byte) (wum : WriteUpdateMode)

theorem unreserved_writeRow {m : WriteUpdateMode} (hm : m = wum) {ch : Nibble} {code : CodeOperand}
    (hwf : (writeRow m ch code).wellFormed = true) :
    unreserved rst wum (encodeWith rst (writeRow m ch code)) = true := by
  subst hm
  obtain ⟨h, -⟩ := wellFormed_writeRow.mp hwf
  rw [encodeWith_writeRow, encodeValueWrite]
  simp only [unreserved, commandNibble_append, channelNibble_append, BitVec.extractLsb'_append_eq_right]
  cases m with
  | wo | wu1 => simpa [Config.writeOp, writesChannel] using h
  | wuall => simpa [Config.writeOp, writesChannel, ← BitVec.toNat_inj] using h

theorem unreserved_power (pm : PowerMode) (mask : Mask) :
    unreserved rst wum (encodeWith rst (.power pm mask)) = true := by
  obtain ⟨hhigh, -, -⟩ := powerByte1_fields pm.portCode (mask.extractLsb' 3 5)
  have hlow : (mask.extractLsb' 0 3 ++ 0#5).extractLsb' 0 5 = 0#5 := BitVec.extractLsb'_append_eq_right
  simp [unreserved, encodeWith, commandNibble, channelNibble, hhigh, hlow]

/-- The byte of a reset mode is one of the three, distinct or not. -/
theorem isSome_ofByte (rm : ResetMode) : (ResetMode.ofByte rst (rst rm)).isSome = true :=
  List.find?_isSome.mpr ⟨rm, by cases rm <;> decide, beq_self_eq_true _⟩

theorem unreserved_swreset (rm : ResetMode) : unreserved rst wum (encodeWith rst (.swreset rm)) = true := by
  simp [unreserved, encodeWith, commandNibble, channelNibble, isSome_ofByte]

theorem unreserved_channel {opc ch : Nibble} (hopc : opc = Config.rc.rdOpIn ∨ opc = Config.rc.rdOpDac)
    (hch : ch.toNat ≤ 7) : unreserved rst wum [opc ++ ch] = true := by
  simp only [unreserved, commandNibble_append, channelNibble_append]
  obtain rfl | rfl := hopc
  · simpa using hch
  · simpa using hch

/-- The patterns of R41 use none of the encodings that R46 reserves. -/
theorem unreserved_encodeWith {i : Instr} (hwf : i.wellFormed = true) (hmode : i.rowMode.getD wum = wum)
    (hreply : i.isReply = false) : unreserved rst wum (encodeWith rst i) = true := by
  cases i with
  | setmode m | abort => rfl
  | writeWo ch code => exact unreserved_writeRow rst wum (m := .wo) hmode hwf
  | writeWu1 ch code => exact unreserved_writeRow rst wum (m := .wu1) hmode hwf
  | writeWuall ch code => exact unreserved_writeRow rst wum (m := .wuall) hmode hwf
  | update ch => rfl
  | power pm mask => exact unreserved_power rst wum pm mask
  | clrcode cc => cases cc <;> rfl
  | ldacmask mask => simp [unreserved, encodeWith, commandNibble, channelNibble]
  | swreset rm => exact unreserved_swreset rst wum rm
  | refstatic m => cases m <;> rfl
  | refflexi f => cases f <;> rfl
  | getval ch => exact unreserved_channel rst wum (.inl rfl) (of_decide_eq_true hwf)
  | getdac ch => exact unreserved_channel rst wum (.inr rfl) (of_decide_eq_true hwf)
  | getpwr | getclr | getldac | getrefs | getreff => rfl
  | replyValue rx0 rx1 | replyPwr rx0 rx1 | replyClr rx0 rx1 | replyLdac rx0 rx1 | replyRefs rx0 rx1
  | replyReff rx0 rx1 => cases hreply

end

variable {i : Instr} {s t : State}

/-- Only an operation whose row the two state elements select has a next state. -/
theorem selected_of_exec_next (h : exec i s = .next t) : i.selected s.wum s.rsel = true := by
  rw [selected_iff]
  cases i with
  | writeWo ch code | writeWu1 ch code | writeWuall ch code =>
    obtain ⟨hs, hm, -⟩ := writeCode_next h
    exact ⟨hm.symm, hs.symm⟩
  | replyValue rx0 rx1 | replyPwr rx0 rx1 | replyClr rx0 rx1 | replyLdac rx0 rx1 | replyRefs rx0 rx1
  | replyReff rx0 rx1 =>
    obtain ⟨-, hs, -⟩ := takeReply_next h
    exact ⟨rfl, hs.symm⟩
  | abort => exact ⟨rfl, rfl⟩
  | setmode m | update ch | power pm mask | clrcode cc | ldacmask mask | swreset rm | refstatic m
  | refflexi f | getval ch | getdac ch | getpwr | getclr | getldac | getrefs | getreff =>
    obtain ⟨hs, -⟩ := asRequest_next h
    exact ⟨rfl, hs.symm⟩

theorem tx_eq_nil_of_writeCode {m : WriteUpdateMode} {ch : Nibble} {code : CodeOperand}
    (h : writeCode m ch code s = .next t) (hwf : (writeRow m ch code).wellFormed = false) : t.resp.tx = [] := by
  obtain ⟨-, -, ⟨f, hf, rfl⟩ | ⟨k, -, rfl⟩⟩ := writeCode_next h
  · rw [encValue_rc] at hf
    split at hf
    · cases hf
    · split at hf
      · have hwf' : (writeRow m ch code).wellFormed = true :=
          wellFormed_writeRow.mpr ⟨‹_›, Nat.le_of_not_lt ‹_›⟩
        rw [hwf'] at hwf; cases hwf
      · cases hf
  · rfl

theorem tx_eq_nil_of_selectChannel {opc ch : Nibble} (h : selectChannel opc ch s = .next t)
    (hch : isOrdinal ch = false) : t.resp.tx = [] := by
  obtain ⟨-, ⟨b0, hb, rfl⟩ | ⟨k, -, rfl⟩⟩ := selectChannel_next h
  · rw [encSelectChannel_rc, if_neg (of_decide_eq_false hch)] at hb; cases hb
  · rfl

/-- An operation that is not well formed emits nothing (R94). -/
theorem tx_eq_nil_of_illFormed (h : exec i s = .next t) (hwf : i.wellFormed = false) : t.resp.tx = [] := by
  cases i with
  | writeWo ch code => exact tx_eq_nil_of_writeCode (m := .wo) h hwf
  | writeWu1 ch code => exact tx_eq_nil_of_writeCode (m := .wu1) h hwf
  | writeWuall ch code => exact tx_eq_nil_of_writeCode (m := .wuall) h hwf
  | getval ch => exact tx_eq_nil_of_selectChannel h hwf
  | getdac ch => exact tx_eq_nil_of_selectChannel h hwf
  | _ => cases hwf

/-- What an operation puts on the port is nothing, or its encoding. -/
theorem unreserved_of_exec (h : exec i s = .next t) : unreserved Config.rc.rstByte s.wum t.resp.tx = true := by
  cases hwf : i.wellFormed with
  | false => rw [tx_eq_nil_of_illFormed h hwf]; rfl
  | true =>
    have hsel := selected_of_exec_next h
    obtain ⟨t', ht', htx⟩ := emittedBytesAreTheTableEncoding i s hwf hsel
    obtain rfl : t' = t := Host.Outcome.next.inj (ht'.symm.trans h)
    rw [htx]
    cases hreply : i.isReply with
    | true => rfl
    | false => exact unreserved_encodeWith _ s.wum hwf (selected_iff.mp hsel).1 hreply

/-- Settles O19: a reset emits nothing, and an operation, where it emits a frame, its encoding by R41. -/
theorem noReservedEncodingIsEmitted : Obligations.NoReservedEncodingIsEmitted := by
  intro s t h
  obtain ⟨ev, rest, -, ⟨-, rfl⟩ | ⟨i, -, hx⟩⟩ := step_next h
  · rfl
  · exact unreserved_of_exec (s := s.present rest) hx

end Sys2Proof

/-! PROOFS. The value operations (spec/40_value_ops.md): the write mode, the value writes in each mode and
their code field, the commit, the host's `SETALL`, and which operations the operand checks make fail. -/

namespace Sys2Proof.Machine

/-! ## What `EncValue` gives a `WRITE` row (R51, R53) -/

/-- The frame of a value write in mode `m`: nibble and channel, then the code at the top of the two payload
bytes (R33). -/
def valueFrame (m : WriteUpdateMode) (ch : Nibble) (code : CodeOperand) : WriteFrame :=
  ⟨Config.rc.writeOp m ++ ch, code.extractLsb' 4 8, code.extractLsb' 0 4 ++ 0#4⟩

section
variable {m : WriteUpdateMode} {ch : Nibble} {code : CodeOperand}

theorem encValue_of_wellFormed (hwf : (writeRow m ch code).wellFormed = true) :
    encValue Config.rc ch m code = .ok (valueFrame m ch code) := by
  obtain ⟨hch, hcode⟩ := wellFormed_writeRow.mp hwf
  rw [encValue_rc, if_neg (Nat.not_lt.mpr hcode), if_pos hch]
  rfl

theorem encValue_of_illFormed (hwf : (writeRow m ch code).wellFormed = false) :
    ∃ k, encValue Config.rc ch m code = .error k := by
  rw [encValue_rc]
  split
  · exact ⟨_, rfl⟩
  · split
    · have hwf' : (writeRow m ch code).wellFormed = true :=
        wellFormed_writeRow.mpr ⟨‹_›, Nat.le_of_not_lt ‹_›⟩
      rw [hwf'] at hwf; cases hwf
    · exact ⟨_, rfl⟩

end

/-- The two payload bytes hold a code in range without loss, for any width of the code port. -/
theorem codeField_of_code {w : Nat} {code : BitVec w} (h : code.toNat ≤ 4095) :
    (codeHigh code).toNat <<< 4 ||| (codeLow code).toNat >>> 4 = code.toNat := by
  have hhigh : (codeHigh code).toNat = code.toNat / 16 := by
    rw [codeHigh, narrow, BitVec.toNat_ofNat, Nat.shiftRight_eq_div_pow]
    omega
  have hlow : (codeLow code).toNat >>> 4 = code.toNat % 16 := by
    rw [codeLow, narrow, BitVec.toNat_ofNat, Nat.shiftRight_eq_div_pow, Nat.shiftLeft_eq]
    omega
  have hlt : code.toNat % 16 < 2 ^ 4 := Nat.mod_lt _ (by decide)
  rw [hhigh, hlow, ← Nat.shiftLeft_add_eq_or_of_lt hlt, Nat.shiftLeft_eq]
  omega

/-- Settles O30: `EncValue` succeeds with the two bytes of the code field, and the decode rule of class
`value` is the field's own formula cut to 12 bits. -/
theorem codeFieldRoundTrips : Obligations.CodeFieldRoundTrips := by
  intro c ch m code f hcode henc
  obtain ⟨-, -, rfl⟩ := (encValue_ok_iff c ch m code f).mp henc
  have hfield := codeField_of_code hcode
  exact ⟨hfield, by rw [decodeValue, hfield, BitVec.ofNat_toNat]⟩

/-! ## `WRITE` at the request port and its step (R40, R52) -/

theorem decodeRequest_write (wum : WriteUpdateMode) {r : Request} (hop : r.op = 1) :
    decodeRequest wum r = .ok (writeRow wum r.ch r.code) := by
  simp [decodeRequest, hop]

theorem exec_writeRow (m : WriteUpdateMode) (ch : Nibble) (code : CodeOperand) (s : State) :
    exec (writeRow m ch code) s = writeCode m ch code s := by
  cases m <;> rfl

section
variable {s t : State} {m : WriteUpdateMode} {ch : Nibble} {code : CodeOperand}

theorem writeCode_ok (hs : s.rsel = .none) (hm : s.wum = m) {f : WriteFrame}
    (henc : encValue Config.rc ch m code = .ok f) :
    writeCode m ch code s = .next (s.respond (.write f)) := by
  subst hm
  rw [writeCode, asRequest_idle hs, if_pos rfl, henc]
  rfl

theorem writeCode_error (hs : s.rsel = .none) (hm : s.wum = m) {k : ErrorKind}
    (henc : encValue Config.rc ch m code = .error k) :
    writeCode m ch code s = .next (s.respond (.error k)) := by
  subst hm
  rw [writeCode, asRequest_idle hs, if_pos rfl, henc]
  rfl

/-- A `WRITE` in the mode in force, channel and code in range, emits its value frame. -/
theorem exec_writeRow_inRange (hs : s.rsel = .none) (hm : s.wum = m) (hch : writesChannel m ch)
    (hcode : code.toNat ≤ 4095) :
    exec (writeRow m ch code) s = .next (s.respond (.write (valueFrame m ch code))) := by
  rw [exec_writeRow]
  exact writeCode_ok hs hm (encValue_of_wellFormed (wellFormed_writeRow.mpr ⟨hch, hcode⟩))

/-- The step of a `WRITE` request takes the mode in force, whatever it is (R52, R104). -/
theorem step_writeRequest {rest : List Event} (hs : s.rsel = .none)
    (hinbox : s.inbox = writeRequest ch code :: rest) (hch : writesChannel s.wum ch) (hcode : code.toNat ≤ 4095) :
    step s = .next ((s.present rest).respond (.write (valueFrame s.wum ch code))) := by
  rw [step_event hinbox, writeRequest,
    perform_request_decoded (s := s.present rest) hs (decodeRequest_write s.wum rfl)]
  exact exec_writeRow_inRange (s := s.present rest) hs rfl hch hcode

end

/-- Settles O27: the row of mode `wo` of the one rule for `WRITE`. -/
theorem writeInModeWoCompletes : Obligations.WriteInModeWoCompletes :=
  ⟨fun _ _ _ hs hm hch hcode => exec_writeRow_inRange (m := .wo) hs hm (.inl hch) hcode,
    fun _ hop => decodeRequest_write .wo hop⟩

/-- Settles O28: the row of mode `wu1` of the one rule for `WRITE`. -/
theorem writeInModeWu1Completes : Obligations.WriteInModeWu1Completes :=
  ⟨fun _ _ _ hs hm hch hcode => exec_writeRow_inRange (m := .wu1) hs hm (.inl hch) hcode,
    fun _ hop => decodeRequest_write .wu1 hop⟩

/-- Settles O29: the row of mode `wuall` of the one rule for `WRITE`, which takes `CH_ALL` too. -/
theorem writeInModeWuallCompletes : Obligations.WriteInModeWuallCompletes :=
  ⟨fun _ _ _ hs hm hch hcode =>
      exec_writeRow_inRange (m := .wuall) hs hm (hch.imp_right fun hall => ⟨hall, rfl⟩) hcode,
    fun _ hop => decodeRequest_write .wuall hop⟩

/-! ## `SETMODE` and `UPDATE` (R50, R54) -/

/-- Settles O26: with no read pending the gate is open, and `opt` lists the three modes. -/
theorem setmodeSetsTheWriteMode : Obligations.SetmodeSetsTheWriteMode := by
  refine ⟨fun m s hs => ⟨_, asRequest_idle hs _, rfl, rfl, rfl, rfl⟩, fun wum r hop => ⟨?_, ?_, ?_⟩⟩
  all_goals
    intro hopt
    simp [decodeRequest, hop, hopt, WriteUpdateMode.ofOpt]

/-- Settles O31: the frame is built of no operand. -/
theorem updateEmitsTheCommitFrame : Obligations.UpdateEmitsTheCommitFrame := by
  refine ⟨fun ch s hs => asRequest_idle hs (emit3 (encUpdate Config.rc) s), fun wum r hop => ?_⟩
  simp [decodeRequest, hop]

/-! ## Errors are exactly the ill-formed operands (R51, R77, R93) -/

section
variable {i : Instr} {s t : State}

theorem selectChannel_error (hs : s.rsel = .none) {opc ch : Nibble} (hch : isOrdinal ch = false) :
    selectChannel opc ch s = .next (s.respond (.error .invalidChannel)) := by
  rw [selectChannel, asRequest_idle hs, encSelectChannel_rc, if_neg (of_decide_eq_false hch)]
  rfl

theorem writeCode_illFormed {m : WriteUpdateMode} {ch : Nibble} {code : CodeOperand} (hs : s.rsel = .none)
    (hm : s.wum = m) (hwf : (writeRow m ch code).wellFormed = false) :
    ∃ k, writeCode m ch code s = .next (s.respond (.error k)) := by
  obtain ⟨k, henc⟩ := encValue_of_illFormed hwf
  exact ⟨k, writeCode_error hs hm henc⟩

/-- A selected operation whose operands fail their check raises: only `WRITE`, `GETVAL` and `GETDAC` have
one. -/
theorem exec_illFormed (hsel : i.selected s.wum s.rsel = true) (hwf : i.wellFormed = false) :
    ∃ k, exec i s = .next (s.respond (.error k)) := by
  obtain ⟨hmode, hclass⟩ := selected_iff.mp hsel
  cases i with
  | writeWo ch code => exact writeCode_illFormed (m := .wo) hclass.symm hmode.symm hwf
  | writeWu1 ch code => exact writeCode_illFormed (m := .wu1) hclass.symm hmode.symm hwf
  | writeWuall ch code => exact writeCode_illFormed (m := .wuall) hclass.symm hmode.symm hwf
  | getval ch | getdac ch => exact ⟨_, selectChannel_error hclass.symm hwf⟩
  | _ => cases hwf

theorem resp_ne_error_of_writeCode {m : WriteUpdateMode} {ch : Nibble} {code : CodeOperand}
    (h : writeCode m ch code s = .next t) (hwf : (writeRow m ch code).wellFormed = true) (k : ErrorKind) :
    t.resp ≠ .error k := by
  obtain ⟨-, -, ⟨f, -, rfl⟩ | ⟨k', henc, -⟩⟩ := writeCode_next h
  · nofun
  · rw [encValue_of_wellFormed hwf] at henc; cases henc

theorem resp_ne_error_of_selectChannel {opc ch : Nibble} (h : selectChannel opc ch s = .next t)
    (hch : isOrdinal ch = true) (k : ErrorKind) : t.resp ≠ .error k := by
  obtain ⟨-, ⟨b0, -, rfl⟩ | ⟨k', henc, -⟩⟩ := selectChannel_next h
  · nofun
  · rw [encSelectChannel_rc, if_pos (of_decide_eq_true hch)] at henc; cases henc

/-- An operation whose operands pass their check, or that has none, answers no error. -/
theorem resp_ne_error_of_wellFormed (h : exec i s = .next t) (hwf : i.wellFormed = true) (k : ErrorKind) :
    t.resp ≠ .error k := by
  cases i with
  | writeWo ch code => exact resp_ne_error_of_writeCode (m := .wo) h hwf k
  | writeWu1 ch code => exact resp_ne_error_of_writeCode (m := .wu1) h hwf k
  | writeWuall ch code => exact resp_ne_error_of_writeCode (m := .wuall) h hwf k
  | getval ch | getdac ch => exact resp_ne_error_of_selectChannel h hwf k
  | setmode m =>
    obtain ⟨-, hb⟩ := asRequest_next h
    cases hb
    nofun
  | update ch | power pm mask | clrcode cc | ldacmask mask | swreset rm | refstatic m | refflexi f =>
    obtain ⟨-, rfl⟩ := writeFrame_next h
    nofun
  | getpwr | getclr | getldac | getrefs | getreff =>
    obtain ⟨-, rfl⟩ := selectGlobal_next h
    nofun
  | replyValue rx0 rx1 | replyPwr rx0 rx1 | replyClr rx0 rx1 | replyLdac rx0 rx1 | replyRefs rx0 rx1
  | replyReff rx0 rx1 =>
    obtain ⟨-, -, rfl⟩ := takeReply_next h
    nofun
  | abort =>
    cases h
    nofun

end

/-- Settles O24: an ill-formed operation raises, and a well-formed one answers no error. -/
theorem errorsExactlyForIllFormedOperands : Obligations.ErrorsExactlyForIllFormedOperands := by
  refine fun i s hsel => ⟨fun ⟨k, hx⟩ => ?_, exec_illFormed hsel⟩
  exact Bool.eq_false_iff.mpr fun hwf => resp_ne_error_of_wellFormed hx hwf k rfl

/-! ## `SETALL` (R56) -/

theorem length_writesFrom (n : Nat) (codes : List CodeOperand) : (writesFrom n codes).length = codes.length := by
  induction codes generalizing n with
  | nil => rfl
  | cons code codes ih => exact congrArg (· + 1) (ih (n + 1))

theorem setAllRequests_ok {codes : Vector CodeOperand 8} {evs : List Event}
    (h : setAllRequests Config.rc codes = .ok evs) :
    evs = writesFrom 0 codes.toList ∧ ∀ code ∈ codes.toList, code.toNat ≤ 4095 := by
  unfold setAllRequests at h
  split at h
  · rename_i hall
    cases h
    exact ⟨rfl, fun code hmem => of_decide_eq_true (List.all_eq_true.mp hall code hmem)⟩
  · cases h

/-- A run through the first `k + 1` of the `WRITE`s to the channels from `n` on: the port carries the frame of
the last of them, and nothing else changes but the events taken. -/
theorem run_writesFrom {codes : List CodeOperand} {rest : List Event} {s : State} {n k : Nat}
    (hs : s.rsel = .none) (hinbox : s.inbox = writesFrom n codes ++ rest)
    (hcodes : ∀ code ∈ codes, code.toNat ≤ 4095) (hn : n + codes.length ≤ 8) (hk : k < codes.length) :
    Host.Core.run core (k + 1) s = .next
      ((s.present ((writesFrom n codes).drop (k + 1) ++ rest)).respond
        (.write (valueFrame s.wum (BitVec.ofNat 4 (n + k)) codes[k]))) := by
  induction codes generalizing s n k with
  | nil => cases hk
  | cons code codes ih =>
    rw [List.length_cons] at hn hk
    have hch : (BitVec.ofNat 4 n).toNat ≤ 7 := by rw [BitVec.toNat_ofNat]; omega
    have hstep := step_writeRequest hs hinbox (.inl hch) (hcodes code List.mem_cons_self)
    rw [run_next hstep]
    cases k with
    | zero => rfl
    | succ k =>
      have hchannel : n + (k + 1) = n + 1 + k := by omega
      rw [hchannel]
      exact ih (s := (s.present (writesFrom (n + 1) codes ++ rest)).respond _) (n := n + 1) hs rfl
        (fun c hc => hcodes c (List.mem_cons_of_mem _ hc)) (by omega) (Nat.lt_of_succ_lt_succ hk)

/-- Settles O33: the requests are `WRITE`s of codes in range to the channels from 0 on, and the run through
them goes by induction on the codes. -/
theorem setAllEmitsEightFramesInOrder : Obligations.SetAllEmitsEightFramesInOrder := by
  intro s codes evs rest hs hevs hinbox
  obtain ⟨rfl, hcodes⟩ := setAllRequests_ok hevs
  have hlen : codes.toList.length = 8 := codes.length_toList
  refine ⟨(length_writesFrom 0 codes.toList).trans hlen, fun k hk => ?_⟩
  rw [run_writesFrom hs hinbox hcodes (by omega) (by omega), Nat.zero_add, Vector.getElem_toList, ← hs]
  rfl

end Sys2Proof.Machine

/-! PROOFS. The control operations (spec/41_control_ops.md): the frame of each, that the operation completes
with it, and the request codes that name the operation. -/

namespace Sys2Proof

/-! ## The options of R40 that name an operation for every value -/

theorem PowerMode.ofOpt_eq (opt : BitVec 2) : PowerMode.ofOpt opt =
    if opt = 0 then .on else if opt = 1 then .pd1k else if opt = 2 then .pd100k else .hiz := by
  revert opt; decide

theorem ClearCode.ofOpt_eq (opt : BitVec 2) : ClearCode.ofOpt opt =
    if opt = 0 then .zero else if opt = 1 then .mid else if opt = 2 then .full else .disable := by
  revert opt; decide

theorem ReferenceFlexiMode.ofOpt_eq (opt : BitVec 2) : ReferenceFlexiMode.ofOpt opt =
    if opt = 0 then .follow else if opt = 1 then .on else if opt = 2 then .off else .static := by
  revert opt; decide

end Sys2Proof

namespace Sys2Proof.Machine

/-! ## The frames in fields of bits (R36, R37, R60 to R66) -/

theorem encPower_rc (pm : PowerMode) (mask : Mask) :
    encPower Config.rc pm mask =
      ⟨0x40, 0#1 ++ Config.rc.pmCode pm ++ mask.extractLsb' 3 5, mask.extractLsb' 0 3 ++ 0#5⟩ := by
  rw [encPower, powerLow_eq, powerHigh_eq]
  rfl

theorem encClearCode_rc (cc : ClearCode) :
    encClearCode Config.rc cc = ⟨0x50, 0x00, 0#2 ++ Config.rc.ccCode cc ++ 0#4⟩ := by
  rw [encClearCode, optionByte_eq]
  rfl

theorem encLdacMask_rc (mask : Mask) : encLdacMask Config.rc mask = ⟨0x60, mask, 0x00⟩ := rfl

theorem encReset_rc (rm : ResetMode) : encReset Config.rc rm = ⟨0x70, Config.rc.rstByte rm, 0x00⟩ := rfl

theorem encRefStatic_rc (m : ReferenceStaticMode) :
    encRefStatic Config.rc m = ⟨0x80, 0x00, if m = .on then 0x10 else 0x00⟩ := by
  cases m <;> rfl

theorem encRefFlexi_rc (f : ReferenceFlexiMode) : encRefFlexi Config.rc f = ⟨0x90, Config.rc.flexi f, 0x00⟩ := rfl

/-- A single-purpose write with no read pending emits its frame and changes nothing else (R7, R106). -/
theorem writeFrame_idle {s : State} (hs : s.rsel = .none) {f g : WriteFrame} (hf : f = g) :
    writeFrame f s = .next (s.respond (.write g)) :=
  hf ▸ asRequest_idle hs (emit3 f s)

/-! ## `POWER` (R36, R60) -/

/-- Settles O34: the formulas of R60 are the bit fields of R36, and the four modes have the four `opt`
codes. -/
theorem powerEmitsTheExactBitLaw : Obligations.PowerEmitsTheExactBitLaw := by
  refine ⟨fun pm mask s hs => writeFrame_idle hs (encPower_rc pm mask), fun wum r hop => ?_⟩
  rw [← PowerMode.ofOpt_eq]
  simp [decodeRequest, hop]

/-- The field over the low `n` bits of a concatenation, read back by a shift. -/
theorem append_toNat_shiftRight {m n : Nat} (x : BitVec m) (y : BitVec n) : (x ++ y).toNat >>> n = x.toNat := by
  rw [append_toNat, Nat.shiftRight_eq_div_pow, Nat.add_comm, Nat.add_mul_div_right _ _ (Nat.two_pow_pos n),
    Nat.div_eq_of_lt y.isLt, Nat.zero_add]

/-- The low `n` bits of a concatenation, read back by a mask. -/
theorem append_toNat_and {m n : Nat} (x : BitVec m) (y : BitVec n) :
    (x ++ y).toNat &&& (2 ^ n - 1) = y.toNat := by
  rw [append_toNat, Nat.and_two_pow_sub_one_eq_mod, Nat.mul_add_mod_of_lt y.isLt]

/-- The mode's code is `byte1 >> 5` (R60). -/
theorem encPower_byte1_shiftRight (pm : PowerMode) (mask : Mask) :
    (encPower Config.rc pm mask).byte1.toNat >>> 5 = (Config.rc.pmCode pm).toNat := by
  rw [encPower_rc, append_toNat_shiftRight, append_toNat]
  exact Nat.zero_add _

/-- The mask is `((byte1 & 0x1F) << 3) | (byte2 >> 5)` (R60). -/
theorem encPower_maskBits (pm : PowerMode) (mask : Mask) :
    ((encPower Config.rc pm mask).byte1.toNat &&& 0x1F) <<< 3 |||
      (encPower Config.rc pm mask).byte2.toNat >>> 5 = mask.toNat := by
  have hhigh : (encPower Config.rc pm mask).byte1.toNat &&& 0x1F = (mask.extractLsb' 3 5).toNat := by
    rw [encPower_rc]
    exact append_toNat_and _ _
  have hlow : (encPower Config.rc pm mask).byte2.toNat >>> 5 = (mask.extractLsb' 0 3).toNat := by
    rw [encPower_rc]
    exact append_toNat_shiftRight _ _
  rw [hhigh, hlow, ← BitVec.toNat_append, mask_of_parts]

theorem pmCode_injective : Function.Injective Config.rc.pmCode :=
  Function.LeftInverse.injective (g := PowerMode.ofOpt) fun pm => by cases pm <;> rfl

/-- Settles O35: the two inverse formulas, and with them one frame has one mode and one mask. -/
theorem powerFrameDeterminesModeAndMask : Obligations.PowerFrameDeterminesModeAndMask := by
  refine fun pm mask =>
    ⟨encPower_byte1_shiftRight pm mask, encPower_maskBits pm mask, fun pm' mask' hframe => ⟨?_, ?_⟩⟩
  · have hcode := encPower_byte1_shiftRight pm mask
    rw [hframe, encPower_byte1_shiftRight] at hcode
    exact (pmCode_injective (BitVec.eq_of_toNat_eq hcode)).symm
  · have hmask := encPower_maskBits pm mask
    rw [hframe, encPower_maskBits] at hmask
    exact (BitVec.eq_of_toNat_eq hmask).symm

/-! ## `CLRCODE`, `LDACMASK` and `SWRESET` (R61 to R64) -/

/-- Settles O36: the shifted code is the field at bits 5:4, and the four codes have the four `opt` codes. -/
theorem clrcodeEmitsItsFrame : Obligations.ClrcodeEmitsItsFrame := by
  refine ⟨fun cc s hs => writeFrame_idle hs (encClearCode_rc cc), fun wum r hop => ?_⟩
  rw [← ClearCode.ofOpt_eq]
  simp [decodeRequest, hop]

/-- Settles O37: the mask goes into the frame as it is. -/
theorem ldacmaskEmitsItsFrame : Obligations.LdacmaskEmitsItsFrame := by
  refine ⟨fun mask s hs => writeFrame_idle hs (encLdacMask_rc mask), fun wum r hop => ?_⟩
  simp [decodeRequest, hop]

/-- Each reset byte is found as that of its own mode. -/
theorem ofByte_rstByte (rm : ResetMode) : ResetMode.ofByte Config.rc.rstByte (Config.rc.rstByte rm) = some rm := by
  cases rm <;> rfl

theorem rstByte_injective : Function.Injective Config.rc.rstByte := fun rm rm' h =>
  Option.some.inj ((ofByte_rstByte rm).symm.trans (h ▸ ofByte_rstByte rm'))

/-- Settles O38: the response aside, the state after the frame is the state before it. -/
theorem swresetEmitsItsFrame : Obligations.SwresetEmitsItsFrame := by
  refine ⟨fun rm s hs => writeFrame_idle hs (encReset_rc rm), fun _ _ h => rstByte_injective h,
    fun wum r hop => ⟨?_, ?_, ?_⟩⟩
  all_goals
    intro hopt
    simp [decodeRequest, hop, hopt, ResetMode.ofOpt]

/-! ## `REFSTATIC` and `REFFLEXI` (R65, R66) -/

/-- Settles O39: the polarity puts a 1 at bit 4 of `byte2` for on, and `opt` lists the two modes. -/
theorem refstaticEmitsItsFrame : Obligations.RefstaticEmitsItsFrame := by
  refine ⟨fun s hs => ⟨writeFrame_idle hs (encRefStatic_rc .on), writeFrame_idle hs (encRefStatic_rc .off)⟩,
    fun wum r hop => ⟨?_, ?_⟩⟩
  all_goals
    intro hopt
    simp [decodeRequest, hop, hopt, ReferenceStaticMode.ofOpt]

/-- Settles O40: `byte1` is the pattern of the mode, and the four modes have the four `opt` codes. -/
theorem refflexiEmitsItsFrame : Obligations.RefflexiEmitsItsFrame := by
  refine ⟨fun s hs => ⟨?_, ?_, ?_, ?_⟩, fun wum r hop => ?_⟩
  · exact writeFrame_idle hs (encRefFlexi_rc .follow)
  · exact writeFrame_idle hs (encRefFlexi_rc .on)
  · exact writeFrame_idle hs (encRefFlexi_rc .off)
  · exact writeFrame_idle hs (encRefFlexi_rc .static)
  · rw [← ReferenceFlexiMode.ofOpt_eq]
    simp [decodeRequest, hop]

end Sys2Proof.Machine

/-! PROOFS. The read-back operations (spec/42_readback_ops.md): the selects, the decode rule of each class,
reads of several steps with their reply or abort, and what an echo of a frame would decode to. -/

namespace Sys2Proof.Machine

/-! ## The selects (R70 to R77) -/

section
variable {s : State}

theorem selectChannel_ok (hs : s.rsel = .none) {opc ch : Nibble} (hch : ch.toNat ≤ 7) :
    selectChannel opc ch s = .next ((s.latch .value).respond (.select (opc ++ ch))) := by
  rw [selectChannel, asRequest_idle hs, encSelectChannel_rc, if_pos hch]
  rfl

theorem selectChannel_outOfRange (hs : s.rsel = .none) {opc ch : Nibble} (hch : 7 < ch.toNat) :
    selectChannel opc ch s = .next (s.respond (.error .invalidChannel)) :=
  selectChannel_error hs (decide_eq_false (Nat.not_le.mpr hch))

theorem selectGlobal_idle (hs : s.rsel = .none) {opc : Nibble} {b0 : Byte} (hb : opc ++ 0#4 = b0)
    (cls : ReadClass) : selectGlobal opc cls s = .next ((s.latch cls).respond (.select b0)) := by
  rw [selectGlobal, asRequest_idle hs, encSelectGlobal_eq, hb]
  rfl

end

/-- Settles O41: the select of a channel at the nibble `RD_OP_IN`. -/
theorem getvalSelectsTheInputRegister : Obligations.GetvalSelectsTheInputRegister := by
  refine ⟨fun ch s hs => ⟨selectChannel_ok hs, selectChannel_outOfRange hs⟩, fun wum r hop => ?_⟩
  simp [decodeRequest, hop]

/-- Settles O42: the select of a channel at the nibble `RD_OP_DAC`. -/
theorem getdacSelectsTheDacRegister : Obligations.GetdacSelectsTheDacRegister := by
  refine ⟨fun ch s hs => ⟨selectChannel_ok hs, selectChannel_outOfRange hs⟩, fun wum r hop => ?_⟩
  simp [decodeRequest, hop]

/-- Settles O43: the command nibble of each register over a zero channel nibble. -/
theorem globalGettersSelectTheirRegisters : Obligations.GlobalGettersSelectTheirRegisters := by
  refine ⟨fun s hs => ⟨?_, ?_, ?_, ?_, ?_⟩, fun wum r => ⟨?_, ?_, ?_, ?_, ?_⟩⟩
  · exact selectGlobal_idle hs rfl .pwr
  · exact selectGlobal_idle hs rfl .clr
  · exact selectGlobal_idle hs rfl .ldac
  · exact selectGlobal_idle hs rfl .refs
  · exact selectGlobal_idle hs rfl .reff
  all_goals
    intro hop
    simp [decodeRequest, hop]

/-! ## The decode rules in fields of bits (R81 to R86) -/

/-- A shift and a mask of `n` ones cut out a field of `n` bits. -/
theorem shiftRight_and_eq_field {w : Nat} (b : BitVec w) (k n : Nat) :
    b.toNat >>> k &&& (2 ^ n - 1) = (b.extractLsb' k n).toNat := by
  rw [BitVec.extractLsb'_toNat, Nat.and_two_pow_sub_one_eq_mod]

/-- A shift alone cuts out the top field. -/
theorem shiftRight_eq_field {w : Nat} (b : BitVec w) {k n : Nat} (hw : w = n + k) :
    b.toNat >>> k = (b.extractLsb' k n).toNat := by
  have hlt : b.toNat >>> k < 2 ^ n := by
    rw [Nat.shiftRight_eq_div_pow]
    exact Nat.div_lt_of_lt_mul (by rw [← Nat.pow_add, Nat.add_comm, ← hw]; exact b.isLt)
  rw [BitVec.extractLsb'_toNat, Nat.mod_eq_of_lt hlt]

/-- A field of a field is a field. -/
theorem field_of_field {w start len start' len' : Nat} (b : BitVec w) (h : start + len ≤ len') :
    (b.extractLsb' start' len').extractLsb' start len = b.extractLsb' (start' + start) len := by
  ext k hk
  have hlt : start + k < len' := by omega
  simp [hlt, Nat.add_assoc]

theorem decodePower_eq {c : Config} (hshift : c.pwrRdShift = 5) (rx0 rx1 : Byte) :
    decodePower c rx0 rx1 = .power (rx0.extractLsb' 5 3)
      (memberOf PowerMode.members (fun m => (c.pmCode m).toNat) (rx0.extractLsb' 5 3).toNat) rx1 := by
  have hfield : rx0.toNat >>> c.pwrRdShift = (rx0.extractLsb' 5 3).toNat := by
    rw [hshift]
    exact shiftRight_eq_field rx0 rfl
  rw [decodePower, hfield, BitVec.ofNat_toNat, BitVec.setWidth_eq]

theorem decodeClear_eq (c : Config) (rx1 : Byte) :
    decodeClear c rx1 = .clear (rx1.extractLsb' c.clrRdShift 2)
      (memberOf ClearCode.members (fun m => (c.ccCode m).toNat) (rx1.extractLsb' c.clrRdShift 2).toNat) := by
  have hfield : rx1.toNat >>> c.clrRdShift &&& 0x3 = (rx1.extractLsb' c.clrRdShift 2).toNat :=
    shiftRight_and_eq_field rx1 c.clrRdShift 2
  rw [decodeClear, hfield, BitVec.ofNat_toNat, BitVec.setWidth_eq]

theorem decodeRefStatic_eq (c : Config) (rx1 : Byte) :
    decodeRefStatic c rx1 = .refStatic (rx1.extractLsb' c.refsRdShift 1)
      (if rx1.extractLsb' c.refsRdShift 1 = c.refsOn then .on else .off) := by
  have hfield : rx1.toNat >>> c.refsRdShift &&& 0x1 = (rx1.extractLsb' c.refsRdShift 1).toNat :=
    shiftRight_and_eq_field rx1 c.refsRdShift 1
  rw [decodeRefStatic, hfield, BitVec.ofNat_toNat, BitVec.setWidth_eq]

theorem decodeRefFlexi_eq (c : Config) (rx0 : Byte) :
    decodeRefFlexi c rx0 = .refFlexi (rx0.extractLsb' c.reffRdShift 3)
      (memberOf ReferenceFlexiMode.members (flexiField c) (rx0.extractLsb' c.reffRdShift 3).toNat) := by
  have hfield : rx0.toNat >>> c.reffRdShift &&& 0x7 = (rx0.extractLsb' c.reffRdShift 3).toNat :=
    shiftRight_and_eq_field rx0 c.reffRdShift 3
  rw [decodeRefFlexi, hfield, BitVec.ofNat_toNat, BitVec.setWidth_eq]

/-! ## Which member a field names, at the machine's codes (D6, D8, R66) -/

theorem powerMode_of_field (field : BitVec 3) :
    memberOf PowerMode.members (fun m => (Config.rc.pmCode m).toNat) field.toNat =
      if field.extractLsb' 2 1 = 0 then some (PowerMode.ofOpt (field.extractLsb' 0 2)) else none := by
  revert field; decide

theorem clearCode_of_field (field : BitVec 2) :
    memberOf ClearCode.members (fun m => (Config.rc.ccCode m).toNat) field.toNat =
      some (ClearCode.ofOpt field) := by
  revert field; decide

theorem flexiMode_of_field (field : BitVec 3) :
    memberOf ReferenceFlexiMode.members (flexiField Config.rc) field.toNat =
      if field = 0b100 then some .follow else if field = 0b101 then some .on
      else if field = 0b110 then some .off else if field = 0b000 then some .static else none := by
  revert field; decide

theorem isSome_powerMode_of_field (field : BitVec 3) :
    (memberOf PowerMode.members (fun m => (Config.rc.pmCode m).toNat) field.toNat).isSome = true ↔
      field.toNat ≤ 3 := by
  revert field; decide

theorem isSome_flexiMode_of_field (field : BitVec 3) :
    (memberOf ReferenceFlexiMode.members (flexiField Config.rc) field.toNat).isSome = true ↔
      field.toNat ∈ [4, 5, 6, 0] := by
  revert field; decide

/-! ## The six `REPLY` rows (R80 to R86) -/

/-- Settles O44: the formula of R81 is the concatenation of `rx0` and the high nibble of `rx1`. -/
theorem valueReplyDecodes : Obligations.ValueReplyDecodes := by
  refine fun rx0 rx1 s hs => ⟨rx0 ++ rx1.extractLsb' 4 4, ?_, ?_, rfl⟩
  · have hlow : rx1.toNat >>> 4 = (rx1.extractLsb' 4 4).toNat := shiftRight_eq_field rx1 rfl
    rw [hlow]
    exact BitVec.toNat_append _ _
  · rw [← decodeValue_eq]
    exact takeReply_here (by decide) hs (decodeValue rx0 rx1)

/-- Settles O45: the field names a mode exactly where its top bit, `rx0[7]`, is 0. -/
theorem powerReplyDecodes : Obligations.PowerReplyDecodes := by
  intro rx0 rx1 s hs
  have hd := decodePower_eq (c := Config.rc) rfl rx0 rx1
  refine ⟨decodePower Config.rc rx0 rx1, takeReply_here (by decide) hs _, ?_, ?_⟩
  · have htop : (rx0.extractLsb' 5 3).extractLsb' 2 1 = rx0.extractLsb' 7 1 :=
      field_of_field rx0 (by decide)
    have hcode : (rx0.extractLsb' 5 3).extractLsb' 0 2 = rx0.extractLsb' 5 2 :=
      field_of_field rx0 (by decide)
    rw [hd, powerMode_of_field, htop, hcode]
  · rw [hd]
    exact isSome_powerMode_of_field _

/-- Settles O46: every value of the field names a clear code. -/
theorem clearCodeReplyDecodes : Obligations.ClearCodeReplyDecodes := by
  intro rx0 rx1 s hs
  have hd : decodeClear Config.rc rx1 =
      .clear (rx1.extractLsb' 4 2) (some (ClearCode.ofOpt (rx1.extractLsb' 4 2))) := by
    rw [decodeClear_eq, clearCode_of_field]
  exact ⟨decodeClear Config.rc rx1, takeReply_here (by decide) hs _, hd, by rw [hd]; rfl⟩

/-- Settles O47: the decode rule of class `ldac` is `rx1` itself. -/
theorem ldacReplyDecodes : Obligations.LdacReplyDecodes :=
  fun _ rx1 _ hs => ⟨takeReply_here (by decide) hs (decodeLdac rx1), rfl⟩

/-- Settles O48: at the polarity of D10 the bit means on where it is 1. -/
theorem staticReferenceReplyDecodes : Obligations.StaticReferenceReplyDecodes :=
  fun _ rx1 _ hs => ⟨decodeRefStatic Config.rc rx1, takeReply_here (by decide) hs _,
    decodeRefStatic_eq Config.rc rx1, rfl⟩

/-- Settles O49: of the eight values of the field four name a mode. -/
theorem flexiReferenceReplyDecodes : Obligations.FlexiReferenceReplyDecodes := by
  intro rx0 rx1 s hs
  have hd := decodeRefFlexi_eq Config.rc rx0
  refine ⟨decodeRefFlexi Config.rc rx0, takeReply_here (by decide) hs _, ?_, ?_⟩
  · rw [hd, flexiMode_of_field]
  · rw [hd]
    exact isSome_flexiMode_of_field _

/-! ## Reads of several steps (R27, R80, R88) -/

section
variable {i : Instr} {s : State} {rest : List Event}

/-- A getter with its channel in range emits a select frame and leaves a read of its class pending. -/
theorem exec_getter (hget : i.selectsClass ≠ .none) (hwf : i.wellFormed = true) (hs : s.rsel = .none) :
    ∃ b0, exec i s = .next ((s.latch i.selectsClass).respond (.select b0)) := by
  cases i with
  | getval ch | getdac ch => exact ⟨_, selectChannel_ok hs (of_decide_eq_true hwf)⟩
  | getpwr | getclr | getldac | getrefs | getreff => exact ⟨_, selectGlobal_idle hs rfl _⟩
  | _ => exact absurd rfl hget

theorem encodeEvent_getter (hget : i.selectsClass ≠ .none) : ∃ r, encodeEvent i = .request r := by
  cases i with
  | getval ch | getdac ch | getpwr | getclr | getldac | getrefs | getreff => exact ⟨_, rfl⟩
  | _ => exact absurd rfl hget

/-- The step of a getter's request: the port reads the getter back and runs it. -/
theorem step_getter (hget : i.selectsClass ≠ .none) (hwf : i.wellFormed = true) (hs : s.rsel = .none)
    (hinbox : s.inbox = encodeEvent i :: rest) :
    ∃ b0, step s = .next (((s.present rest).latch i.selectsClass).respond (.select b0)) := by
  obtain ⟨b0, hx⟩ := exec_getter (s := s.present rest) hget hwf hs
  obtain ⟨r, hr⟩ := encodeEvent_getter hget
  have hdecode := portReadsBackEveryOperation i _ _ (selected_of_exec_next hx)
  rw [hr] at hdecode
  refine ⟨b0, ?_⟩
  rw [step_event hinbox, hr, perform_request_decoded (s := s.present rest) hs hdecode, hx]

theorem step_abort (hinbox : s.inbox = .abort :: rest) :
    step s = .next (((s.present rest).latch .none).respond .silent) := by
  rw [step_event hinbox]
  rfl

end

/-- Settles O51: the getter leaves its class pending, and the reply is decoded by the class pending. -/
theorem selectThenReplyDecodesByItsClass : Obligations.SelectThenReplyDecodesByItsClass := by
  intro i s rx0 rx1 rest hget hwf hs hinbox
  obtain ⟨b0, hselect⟩ := step_getter hget hwf hs hinbox
  obtain ⟨d, hd, hreply⟩ := perform_reply_pending
    (s := ((s.present rest).latch i.selectsClass).respond (.select b0)) hget rx0 rx1
  refine ⟨d, hd, ?_⟩
  rw [run_next hselect, run_next ((step_event rfl).trans hreply), run_zero]
  rfl

/-- Settles O52: the latch is cleared whatever it holds. -/
theorem abortFreesThePendingRead : Obligations.AbortFreesThePendingRead := fun _ => rfl

/-- Settles O53: the abort leaves no read pending, and without one a reply is not enabled. -/
theorem abortedReadTakesNoLateReply : Obligations.AbortedReadTakesNoLateReply := by
  intro i s rx0 rx1 rest hget hwf hs hinbox
  obtain ⟨b0, hselect⟩ := step_getter hget hwf hs hinbox
  refine ⟨⟨_, (run_next hselect 1).trans (run_next (step_abort rfl) 0), rfl, rfl⟩, ?_⟩
  · rw [run_next hselect, run_next (step_abort rfl)]
    exact run_refused ((step_event rfl).trans (perform_reply_idle rfl rx0 rx1)) 0

/-! ## Echoes (R65, R66, R82 to R86, C2) -/

section
variable {c : Config}

theorem decodeClear_echo (hshift : c.clrRdShift = 4)
    (hcodes : ∀ a b : ClearCode, c.ccCode a = c.ccCode b → a = b)
    (cc : ClearCode) : decodeClear c (encClearCode c cc).byte2 = .clear (c.ccCode cc) (some cc) := by
  have hfield : (encClearCode c cc).byte2.extractLsb' 4 2 = c.ccCode cc := by
    obtain ⟨-, hcode, -⟩ := clearByte_fields (c.ccCode cc)
    rw [encClearCode, optionByte_eq]
    exact hcode
  have hmem : cc ∈ ClearCode.members := by cases cc <;> decide
  rw [decodeClear_eq, hshift, hfield,
    memberOf_code _ _ cc hmem fun b _ hb => hcodes b cc (BitVec.eq_of_toNat_eq hb)]

/-- The payload byte of a static-reference frame has its bit at place 4. -/
theorem encRefStatic_byte2_bit (c : Config) (m : ReferenceStaticMode) :
    (encRefStatic c m).byte2.extractLsb' 4 1 = refStaticBit c m := by
  have h : ∀ bit : BitVec 1, (narrow (bit.toNat <<< 4)).extractLsb' 4 1 = bit := by decide
  exact h (refStaticBit c m)

/-- The two bits of the static reference differ, whatever the polarity. -/
theorem refStaticBit_eq_refsOn (c : Config) (m : ReferenceStaticMode) : refStaticBit c m = c.refsOn ↔ m = .on := by
  have hne : ∀ bit : BitVec 1, ~~~bit ≠ bit := by decide
  cases m with
  | on => simp [refStaticBit]
  | off => simp [refStaticBit, hne]

theorem decodeRefStatic_echo (hshift : c.refsRdShift = 4) (m : ReferenceStaticMode) :
    decodeRefStatic c (encRefStatic c m).byte2 = .refStatic (refStaticBit c m) m := by
  rw [decodeRefStatic_eq, hshift, encRefStatic_byte2_bit]
  simp only [refStaticBit_eq_refsOn]
  cases m <;> rfl

theorem decodeRefFlexi_echo (hshift : c.reffRdShift = 4)
    (hcodes : ∀ a b : ReferenceFlexiMode, flexiField c a = flexiField c b → a = b) (f : ReferenceFlexiMode) :
    decodeRefFlexi c (encRefFlexi c f).byte1 = .refFlexi (BitVec.ofNat 3 (flexiField c f)) (some f) := by
  have hfield : (encRefFlexi c f).byte1.toNat >>> 4 &&& 0x7 = flexiField c f := rfl
  have hmem : f ∈ ReferenceFlexiMode.members := by cases f <;> decide
  rw [decodeRefFlexi, hshift, hfield, memberOf_code _ _ f hmem fun b _ hb => hcodes b f hb]

/-- The top field of a power frame's `byte1` is the mode's code (R36, R60). -/
theorem encPower_byte1_field (hshift : c.pmShift = 5) (pm : PowerMode) (mask : Mask) :
    (encPower c pm mask).byte1.extractLsb' 5 3 = (c.pmCode pm).setWidth 3 := by
  have hbyte1 : (encPower c pm mask).byte1 = (0#1 ++ c.pmCode pm) ++ mask.extractLsb' 3 5 := by
    rw [encPower, hshift]
    exact powerHigh_eq _ _
  rw [hbyte1, BitVec.extractLsb'_append_eq_left]
  exact (BitVec.setWidth_eq_append (by decide)).symm

/-- `byte2` of a power frame is the mask cut to its three low bits, at the top of the byte (R36, R60). -/
theorem encPower_byte2 (c : Config) (pm : PowerMode) (mask : Mask) : (encPower c pm mask).byte2 = mask <<< 5 := by
  apply BitVec.eq_of_toNat_eq
  rw [BitVec.toNat_shiftLeft]
  rfl

theorem decodePower_echo (hwrite : c.pmShift = 5) (hread : c.pwrRdShift = 5)
    (hcodes : ∀ a b : PowerMode, c.pmCode a = c.pmCode b → a = b) (pm : PowerMode) (mask : Mask) :
    decodePower c (encPower c pm mask).byte1 (encPower c pm mask).byte2 =
      .power ((c.pmCode pm).setWidth 3) (some pm) (mask <<< 5) := by
  have hmem : pm ∈ PowerMode.members := by cases pm <;> decide
  have hcode : ((c.pmCode pm).setWidth 3).toNat = (c.pmCode pm).toNat :=
    BitVec.toNat_setWidth_of_le (by decide)
  rw [decodePower_eq hread, encPower_byte1_field hwrite, encPower_byte2, hcode,
    memberOf_code _ _ pm hmem fun b _ hb => hcodes b pm (BitVec.eq_of_toNat_eq hb)]

end

/-- Settles O54: each field is read where its frame has it, and distinct codes name one mode. -/
theorem optionFieldsReturnFromAnEcho : Obligations.OptionFieldsReturnFromAnEcho :=
  fun _ => ⟨decodeClear_echo, decodeRefStatic_echo, decodeRefFlexi_echo⟩

/-- Settles O55: `byte1` of a power frame has the mode where it is read and `byte2` only three bits of the
mask, and `byte2` of an LDAC frame has none. -/
theorem masksDoNotReturnFromAnEcho : Obligations.MasksDoNotReturnFromAnEcho :=
  fun _ hwrite hread hcodes pm mask => ⟨decodePower_echo hwrite hread hcodes pm mask, rfl⟩

end Sys2Proof.Machine

/-! PROOFS. The exceptions (spec/60_exceptions.md): which operations and codes raise `InvalidValue`, the same
check in the host's `SETALL`, and what `err` says of an operation that completes. -/

namespace Sys2Proof.Machine

/-! ## `InvalidValue` (R91, R93) -/

/-- The check of the code comes first, and no other check answers its kind. -/
theorem encValue_eq_invalidValue_iff {m : WriteUpdateMode} {ch : Nibble} {code : CodeOperand} :
    encValue Config.rc ch m code = .error .invalidValue ↔ 4095 < code.toNat := by
  rw [encValue_rc]
  by_cases hcode : 4095 < code.toNat
  · rw [if_pos hcode]
    exact iff_of_true rfl hcode
  · rw [if_neg hcode]
    refine iff_of_false ?_ hcode
    split
    · nofun
    · nofun

section
variable {i : Instr} {f : State → Answer} {s t : State}

/-- The port carries an error of a `WRITE` row exactly where `EncValue` answered it. -/
theorem writeCode_resp_eq_error_iff {row : WriteUpdateMode} {ch : Nibble} {code : CodeOperand}
    (h : writeCode row ch code s = .next t) (k : ErrorKind) :
    t.resp = .error k ↔ encValue Config.rc ch row code = .error k := by
  obtain ⟨-, -, ⟨f, henc, rfl⟩ | ⟨k', henc, rfl⟩⟩ := writeCode_next h
  · simp [henc]
  · simp [henc]

/-- The one error of a channel select is `InvalidChannel` (R77). -/
theorem selectChannel_resp_ne_invalidValue {opc ch : Nibble} (h : selectChannel opc ch s = .next t) :
    t.resp ≠ .error .invalidValue := by
  obtain ⟨-, ⟨b0, -, rfl⟩ | ⟨k, henc, rfl⟩⟩ := selectChannel_next h
  · nofun
  · rw [encSelectChannel_rc] at henc
    split at henc
    · cases henc
    · cases henc
      nofun

/-- Of the shared meanings only that of the `WRITE` rows raises `InvalidValue`. -/
theorem RunsAs.eq_writeRow_of_invalidValue (h : RunsAs i f) (ht : f s = .next t)
    (hresp : t.resp = .error .invalidValue) :
    ∃ (m : WriteUpdateMode) (ch : Nibble) (code : CodeOperand), i = writeRow m ch code ∧ 4095 < code.toNat := by
  cases h with
  | setmode m =>
    obtain ⟨-, hb⟩ := asRequest_next ht
    cases hb
    cases hresp
  | write row ch code =>
    have henc := (writeCode_resp_eq_error_iff ht .invalidValue).mp hresp
    exact ⟨row, ch, code, rfl, encValue_eq_invalidValue_iff.mp henc⟩
  | frame f =>
    obtain ⟨-, rfl⟩ := writeFrame_next ht
    cases hresp
  | channel opc ch => exact absurd hresp (selectChannel_resp_ne_invalidValue ht)
  | global opc cls =>
    obtain ⟨-, rfl⟩ := selectGlobal_next ht
    cases hresp
  | reply row d =>
    obtain ⟨-, -, rfl⟩ := takeReply_next ht
    cases hresp
  | abort =>
    cases ht
    cases hresp

theorem exec_writeRow_invalidValue {m : WriteUpdateMode} {ch : Nibble} {code : CodeOperand}
    (h : exec (writeRow m ch code) s = .next t) (hcode : 4095 < code.toNat) : t.resp = .error .invalidValue := by
  rw [exec_writeRow] at h
  exact (writeCode_resp_eq_error_iff h _).mpr (encValue_eq_invalidValue_iff.mpr hcode)

end

/-- What the pre-validation of `SETALL` asks of the eight codes: that none is above the range (R56). -/
theorem all_codes_le_codeMax_iff (codes : Vector CodeOperand 8) :
    (codes.toList.all fun code => decide (code.toNat ≤ Config.rc.codeMax)) = true ↔
      ¬ ∃ n : Fin 8, 4095 < codes[n].toNat := by
  simp [Fin.forall_iff]

theorem setAllRequests_eq_error_iff (codes : Vector CodeOperand 8) (k : ErrorKind) :
    setAllRequests Config.rc codes = .error k ↔ k = .invalidValue ∧ ∃ n : Fin 8, 4095 < codes[n].toNat := by
  have hall := all_codes_le_codeMax_iff codes
  unfold setAllRequests
  split
  · exact ⟨nofun, fun ⟨_, hbad⟩ => absurd hbad (hall.mp ‹_›)⟩
  · have hbad := not_not.mp (mt hall.mpr ‹_›)
    exact ⟨fun h => ⟨(Except.error.inj h).symm, hbad⟩, fun ⟨hk, _⟩ => hk ▸ rfl⟩

/-- Settles O21: of the shared meanings that of the `WRITE` rows raises the kind, by the first check of
`EncValue`; `SETALL` makes the same check on each code. -/
theorem invalidValueExactlyForCodesAboveRange : Obligations.InvalidValueExactlyForCodesAboveRange := by
  refine ⟨fun i s t h => ⟨(exec_runsAs i).eq_writeRow_of_invalidValue h, ?_⟩, setAllRequests_eq_error_iff⟩
  rintro ⟨m, ch, code, rfl, hcode⟩
  exact exec_writeRow_invalidValue h hcode

/-! ## `err` of an operation that completes (R39, R90) -/

/-- The error codes of D15, in a response that has an `err` at all. -/
theorem Response.err_of_ne_none {r : Response} (h : r.err Config.rc ≠ none) :
    r.err Config.rc =
      if r = .error .invalidValue then some 1 else if r = .error .invalidChannel then some 2 else some 0 := by
  cases r with
  | silent | reply d => exact absurd rfl h
  | done | write f | select b0 => rfl
  | error k => cases k <;> rfl

theorem Response.err_of_tx_ne_nil {r : Response} (h : r.tx ≠ []) : r.err Config.rc = some 0 := by
  cases r with
  | write f | select b0 => rfl
  | silent | done | error k | reply d => exact absurd rfl h

theorem Response.err_toNat_le {r : Response} {e : BitVec 2} (h : r.err Config.rc = some e) : e.toNat ≤ 2 := by
  cases r with
  | silent | reply d => cases h
  | done | write f | select b0 => cases h; decide
  | error k =>
    cases k with
    | invalidValue | invalidChannel => cases h; decide

/-- The operations that are not the row of a request: they ask for no free latch. -/
theorem isReply_or_abort_iff (i : Instr) : i.isReply = true ∨ i = .abort ↔ i.rowClass ≠ some .none := by
  cases i with
  | replyValue rx0 rx1 | replyPwr rx0 rx1 | replyClr rx0 rx1 | replyLdac rx0 rx1 | replyRefs rx0 rx1
  | replyReff rx0 rx1 => exact iff_of_true (.inl rfl) nofun
  | abort => exact iff_of_true (.inr rfl) nofun
  | _ => exact iff_of_false nofun fun hne => hne rfl

section
variable {i : Instr} {s t : State}

/-- A request that completes has an `err`: it finds no read pending, so its response is no reply. -/
theorem err_ne_none_of_request (h : exec i s = .next t) (hrequest : i.rowClass = some .none) :
    t.resp.err Config.rc ≠ none := by
  obtain ⟨-, hclass⟩ := selected_iff.mp (selected_of_exec_next h)
  have hs : s.rsel = .none := by rw [← hclass, hrequest]; rfl
  obtain ⟨m, -, -, rfl⟩ | ⟨f, -, rfl⟩ | ⟨k, -, rfl⟩ | ⟨b0, cls, -, -, rfl⟩ | ⟨d, hpending, -⟩ | ⟨rfl, -⟩ :=
    exec_next h
  · nofun
  · nofun
  · nofun
  · nofun
  · exact absurd hs hpending
  · cases hrequest

/-- A reply and an `ABORT` have no `err`. -/
theorem err_eq_none_of_not_request (h : exec i s = .next t) (hrequest : i.rowClass ≠ some .none) :
    t.resp.err Config.rc = none := by
  cases i with
  | replyValue rx0 rx1 | replyPwr rx0 rx1 | replyClr rx0 rx1 | replyLdac rx0 rx1 | replyRefs rx0 rx1
  | replyReff rx0 rx1 =>
    obtain ⟨-, -, rfl⟩ := takeReply_next h
    rfl
  | abort => cases h; rfl
  | _ => exact absurd rfl hrequest

end

/-- Settles O56: whether there is an `err` is a matter of the operation's row, what it then says one of the
response. -/
theorem errNamesTheOutcome : Obligations.ErrNamesTheOutcome := by
  intro i s t h
  refine ⟨?_, Response.err_of_tx_ne_nil, fun _ => Response.err_toNat_le⟩
  split
  · exact err_eq_none_of_not_request h ((isReply_or_abort_iff i).mp ‹_›)
  · have hrequest := not_not.mp (mt (isReply_or_abort_iff i).mpr ‹_›)
    exact Response.err_of_ne_none (err_ne_none_of_request h hrequest)

end Sys2Proof.Machine

/-! PROOFS. Reset and hazards (spec/70_reset_and_hazards.md): a step as the run of the operation its event
decodes to, runs of a host that keeps its duties, and the `WRITE` right after a `SETMODE`. -/

namespace Sys2Proof

/-! ## The row that a request decodes to (R40, R102) -/

/-- The class of the read pending after the operation: that of its select frame, where it emits one. -/
def Instr.leavesRead (i : Instr) : ReadClass := if i.wellFormed then i.selectsClass else .none

theorem Instr.leavesRead_of_selectsClass_none {i : Instr} (h : i.selectsClass = .none) : i.leavesRead = .none := by
  rw [leavesRead, h, ite_self]

/-- The operation `i` is one that the request `r` may decode to in the mode `wum`: a row of the requests, of
`wum` if it is a `WRITE`, that leaves the read which the host's duties take `r` to open. -/
structure IsRowOf (wum : WriteUpdateMode) (r : Request) (i : Instr) : Prop where
  rowClass : i.rowClass = some .none
  rowMode : i.rowMode.getD wum = wum
  leavesRead : i.leavesRead = r.opensRead

theorem isRowOf_writeRow {wum : WriteUpdateMode} {r : Request} (hopens : r.opensRead = .none) :
    IsRowOf wum r (writeRow wum r.ch r.code) := by
  cases wum with
  | wo | wu1 | wuall => exact ⟨rfl, rfl, hopens ▸ Instr.leavesRead_of_selectsClass_none rfl⟩

theorem isRowOf_of_decodeRequest {wum : WriteUpdateMode} {r : Request} {i : Instr}
    (h : decodeRequest wum r = .ok i) : IsRowOf wum r i := by
  simp only [decodeRequest] at h
  split at h
  case h_1 hop | h_7 hop | h_8 hop =>
    split at h
    · have hlisted := ‹Option.map _ _ = some _›
      cases h
      obtain ⟨m, -, rfl⟩ := Option.map_eq_some_iff.mp hlisted
      exact ⟨rfl, rfl, by rw [Request.opensRead, hop]; rfl⟩
    · cases h
  case h_2 hop =>
    cases h
    exact isRowOf_writeRow (by rw [Request.opensRead, hop]; rfl)
  case h_16 =>
    have hlt : r.op.toNat < 16 := r.op.isLt
    have hop : r.op.toNat = 15 := by simp only [imp_false] at *; omega
    cases h
    exact ⟨rfl, rfl, by rw [Request.opensRead, hop]; rfl⟩
  all_goals
    have hop := ‹r.op.toNat = _›
    cases h
    exact ⟨rfl, rfl, by rw [Request.opensRead, hop]; rfl⟩

/-- An event that the host's duties allow is a reset, or it decodes to a row that the two state elements
select and that leaves the read pending which the duties say. -/
theorem decodeEvent_of_allowed {rsel rsel' : ReadClass} {ev : Event} (h : Event.allowed rsel ev = some rsel')
    (wum : WriteUpdateMode) :
    (ev = .reset ∧ rsel' = .none) ∨
    ∃ i, decodeEvent wum rsel ev = .ok i ∧ i.selected wum rsel = true ∧ i.leavesRead = rsel' := by
  cases ev with
  | request r =>
    obtain ⟨⟨rfl, hlisted⟩, hopens⟩ := Option.ite_none_right_eq_some.mp h
    cases hd : decodeRequest wum r with
    | ok i =>
      obtain ⟨hclass, hmode, hleaves⟩ := isRowOf_of_decodeRequest hd
      refine .inr ⟨i, hd, selected_iff.mpr ⟨hmode, ?_⟩, hleaves.trans (Option.some.inj hopens)⟩
      rw [hclass]
      rfl
    | error e =>
      obtain ⟨hunlisted, -⟩ := decodeRequest_eq_error.mp hd
      rw [hlisted] at hunlisted; cases hunlisted
  | reply rx0 rx1 =>
    cases rsel with
    | none => cases h
    | value | pwr | clr | ldac | refs | reff =>
      cases h
      exact .inr ⟨_, rfl, selected_iff.mpr ⟨rfl, rfl⟩, rfl⟩
  | abort => cases h; exact .inr ⟨.abort, rfl, selected_iff.mpr ⟨rfl, rfl⟩, rfl⟩
  | reset => cases h; exact .inl ⟨rfl, rfl⟩

end Sys2Proof

namespace Sys2Proof.Machine

/-! ## A step runs the operation that its event decodes to (R26, R102) -/

section
variable {i : Instr} {s : State} {ev : Event}

/-- The meaning of every request has the gate of R106. -/
theorem exec_request_pending (hrow : i.rowClass = some .none) (hs : s.rsel ≠ .none) :
    exec i s = .refused .readPending := by
  cases i with
  | setmode m | writeWo ch code | writeWu1 ch code | writeWuall ch code | update ch | power pm mask
  | clrcode cc | ldacmask mask | swreset rm | refstatic m | refflexi f | getval ch | getdac ch | getpwr
  | getclr | getldac | getrefs | getreff => exact asRequest_pending hs _
  | replyValue rx0 rx1 | replyPwr rx0 rx1 | replyClr rx0 rx1 | replyLdac rx0 rx1 | replyRefs rx0 rx1
  | replyReff rx0 rx1 | abort => cases hrow

theorem perform_request {r : Request} (hd : decodeRequest s.wum r = .ok i) : perform (.request r) s = exec i s := by
  by_cases hs : s.rsel = .none
  · exact perform_request_decoded hs hd
  · rw [perform_request_pending hs, exec_request_pending (isRowOf_of_decodeRequest hd).rowClass hs]

theorem perform_reply {rx0 rx1 : Byte} (hd : decodeEvent s.wum s.rsel (.reply rx0 rx1) = .ok i) :
    perform (.reply rx0 rx1) s = exec i s := by
  simp only [decodeEvent] at hd
  split at hd
  · have hrow := ‹replyRow s.rsel rx0 rx1 = some _›
    cases hd
    exact perform_reply_row (fun hs => by rw [hs] at hrow; cases hrow) hrow
  · cases hd

theorem perform_decoded (hd : decodeEvent s.wum s.rsel ev = .ok i) : perform ev s = exec i s := by
  cases ev with
  | request r => exact perform_request hd
  | reply rx0 rx1 => exact perform_reply hd
  | abort => cases hd; exact perform_abort
  | reset => cases hd

end

/-- Settles O10: the event taken leaves what its decoding reads as it is, and performing an event that
decodes is running its operation. -/
theorem stepRunsTheDecodedOperation : Obligations.StepRunsTheDecodedOperation :=
  fun s _ rest _ hinbox hd => (step_event hinbox).trans (perform_decoded (s := s.present rest) hd)

/-! ## A host that keeps its duties (R105, R106) -/

section
variable {i : Instr} {s t : State} {ev : Event} {rest : List Event}

/-- The row selected completes, with or without an error. -/
theorem exec_selected (hsel : i.selected s.wum s.rsel = true) : ∃ t, exec i s = .next t := by
  cases hwf : i.wellFormed with
  | true =>
    obtain ⟨t, ht, -⟩ := emittedBytesAreTheTableEncoding i s hwf hsel
    exact ⟨t, ht⟩
  | false =>
    obtain ⟨k, hk⟩ := exec_illFormed hsel hwf
    exact ⟨_, hk⟩

/-- No operation touches the events still to come. -/
theorem exec_inbox (h : exec i s = .next t) : t.inbox = s.inbox := by
  obtain ⟨m, -, -, rfl⟩ | ⟨f, -, rfl⟩ | ⟨k, -, rfl⟩ | ⟨b0, cls, -, -, rfl⟩ | ⟨d, -, rfl⟩ | ⟨-, rfl⟩ :=
    exec_next h
  all_goals rfl

theorem selectChannel_rsel {opc ch : Nibble} (h : selectChannel opc ch s = .next t) :
    t.rsel = if isOrdinal ch then .value else .none := by
  obtain ⟨hs, -⟩ := asRequest_next h
  by_cases hch : ch.toNat ≤ 7
  · rw [selectChannel_ok hs hch] at h
    cases h
    exact (if_pos (decide_eq_true hch)).symm
  · rw [selectChannel_outOfRange hs (Nat.lt_of_not_le hch)] at h
    cases h
    rw [if_neg (mt of_decide_eq_true hch)]
    exact hs

theorem writeCode_rsel {row : WriteUpdateMode} {ch : Nibble} {code : CodeOperand}
    (h : writeCode row ch code s = .next t) : t.rsel = .none := by
  obtain ⟨hs, -, ⟨f, -, rfl⟩ | ⟨k, -, rfl⟩⟩ := writeCode_next h
  · exact hs
  · exact hs

/-- Only a getter that passes its check leaves a read pending (R11). -/
theorem exec_rsel (h : exec i s = .next t) : t.rsel = i.leavesRead := by
  cases i with
  | setmode m =>
    obtain ⟨hs, hb⟩ := asRequest_next h
    cases hb
    exact hs
  | writeWo ch code | writeWu1 ch code | writeWuall ch code =>
    exact (writeCode_rsel h).trans (Instr.leavesRead_of_selectsClass_none rfl).symm
  | update ch | power pm mask | clrcode cc | ldacmask mask | swreset rm | refstatic m | refflexi f =>
    obtain ⟨hs, rfl⟩ := writeFrame_next h
    exact hs
  | getval ch | getdac ch => exact selectChannel_rsel h
  | getpwr | getclr | getldac | getrefs | getreff =>
    obtain ⟨-, rfl⟩ := selectGlobal_next h
    rfl
  | replyValue rx0 rx1 | replyPwr rx0 rx1 | replyClr rx0 rx1 | replyLdac rx0 rx1 | replyRefs rx0 rx1
  | replyReff rx0 rx1 =>
    obtain ⟨-, -, rfl⟩ := takeReply_next h
    rfl
  | abort => cases h; rfl

/-- An event that the host's duties allow is taken, and leaves pending what the duties say (R102, R105). -/
theorem step_allowed {rsel' : ReadClass} (hinbox : s.inbox = ev :: rest)
    (hallowed : Event.allowed s.rsel ev = some rsel') : ∃ t, step s = .next t ∧ t.rsel = rsel' ∧ t.inbox = rest := by
  obtain ⟨rfl, rfl⟩ | ⟨i, hd, hsel, rfl⟩ := decodeEvent_of_allowed hallowed s.wum
  · exact ⟨_, (step_event hinbox).trans perform_reset, rfl, rfl⟩
  · obtain ⟨t, ht⟩ := exec_selected (s := s.present rest) hsel
    exact ⟨t, (stepRunsTheDecodedOperation s ev rest i hinbox hd).trans ht, exec_rsel ht, exec_inbox ht⟩

theorem disciplined_cons {rsel : ReadClass} (h : disciplined rsel (ev :: rest) = true) :
    ∃ rsel', Event.allowed rsel ev = some rsel' ∧ disciplined rsel' rest = true := by
  unfold disciplined at h
  split at h
  · exact ⟨_, ‹_›, h⟩
  · cases h

end

/-- Settles O13: each step takes an allowed event and leaves the rest disciplined, so the run goes by
induction on its length. -/
theorem disciplinedHostIsNeverRefused : Obligations.DisciplinedHostIsNeverRefused := by
  intro s hdisc k hk
  induction k generalizing s with
  | zero => exact ⟨s, run_zero s, rfl⟩
  | succ k ih =>
    cases hinbox : s.inbox with
    | nil => rw [hinbox] at hk; cases hk
    | cons ev rest =>
      rw [hinbox] at hdisc hk
      obtain ⟨rsel', hallowed, hrest⟩ := disciplined_cons hdisc
      obtain ⟨t, hstep, rfl, rfl⟩ := step_allowed hinbox hallowed
      rw [run_next hstep]
      exact ih t hrest (Nat.le_of_succ_le_succ hk)

/-! ## The `WRITE` right after a `SETMODE` (R104) -/

section
variable {s : State} {m : WriteUpdateMode} {ch : Nibble} {code : CodeOperand} {rest : List Event}

theorem step_setmode (hs : s.rsel = .none) (hinbox : s.inbox = encodeEvent (.setmode m) :: rest) :
    step s = .next (((s.present rest).setMode m).respond .done) := by
  have hsel : (Instr.setmode m).selected s.wum s.rsel = true := selected_iff.mpr ⟨rfl, hs.symm⟩
  rw [stepRunsTheDecodedOperation s _ rest _ hinbox (portReadsBackEveryOperation _ _ _ hsel)]
  exact asRequest_idle hs _

theorem decodeEvent_writeRequest (wum : WriteUpdateMode) (rsel : ReadClass) :
    decodeEvent wum rsel (writeRequest ch code) = .ok (writeRow wum ch code) :=
  decodeRequest_write (r := ⟨1, ch, code, 0, 0⟩) wum rfl

theorem encValue_broadcast_error (hm : m ≠ .wuall) (hcode : code.toNat ≤ 4095) :
    encValue Config.rc Config.rc.chAll m code = .error .invalidChannel := by
  rw [encValue_rc, if_neg (Nat.not_lt.mpr hcode)]
  exact if_neg fun h => h.elim (by decide) fun ⟨_, hwuall⟩ => hm hwuall

/-- The step of a `WRITE` request for an ordinal or `CH_ALL`, in the mode in force: a broadcast is legal in
`wuall` alone (R51, R104). -/
theorem step_writeRequest_ordinalOrAll (hs : s.rsel = .none) (hinbox : s.inbox = writeRequest ch code :: rest)
    (hch : ch.toNat ≤ 7 ∨ ch = Config.rc.chAll) (hcode : code.toNat ≤ 4095) :
    step s = .next ((s.present rest).respond
      (if ch = Config.rc.chAll ∧ s.wum ≠ .wuall then .error .invalidChannel
        else .write (valueFrame s.wum ch code))) := by
  by_cases hbad : ch = Config.rc.chAll ∧ s.wum ≠ .wuall
  · rw [if_pos hbad, stepRunsTheDecodedOperation s _ rest _ hinbox (decodeEvent_writeRequest _ _), exec_writeRow]
    obtain ⟨rfl, hm⟩ := hbad
    exact writeCode_error (s := s.present rest) hs rfl (encValue_broadcast_error hm hcode)
  · rw [if_neg hbad]
    have hlegal : writesChannel s.wum ch :=
      hch.imp_right fun hall => ⟨hall, not_not.mp fun hm => hbad ⟨hall, hm⟩⟩
    exact step_writeRequest hs hinbox hlegal hcode

end

/-- Settles O32: the `SETMODE` leaves its mode in force, and the `WRITE` takes the mode in force. -/
theorem writeAfterSetmodeUsesTheNewMode : Obligations.WriteAfterSetmodeUsesTheNewMode := by
  intro s m ch code rest hs hcode hch hinbox
  have hset := step_setmode hs hinbox
  have hwrite := step_writeRequest_ordinalOrAll
    (s := ((s.present (writeRequest ch code :: rest)).setMode m).respond .done) hs rfl hch hcode
  rw [run_next hset, run_next hwrite, run_zero, ← hs]
  rfl

end Sys2Proof.Machine

/-! PROOFS. The other statements: the reset event and the reset state, the port codes of the two state elements,
when a step completes and when an overlapping event is refused, `InvalidChannel`, and that errors have no
effect. -/

namespace Sys2Proof

/-! ## The port codes of the state elements (R10, R11) -/

theorem WriteUpdateMode.ofOpt_portCode (m : WriteUpdateMode) : ofOpt m.portCode = some m := by
  cases m <;> rfl

/-- The value of `RSEL` that a port code stands for (R11); 7 stands for none. -/
def ReadClass.ofPortCode (code : BitVec 3) : Option ReadClass :=
  [.none, .value, .pwr, .clr, .ldac, .refs, .reff][code.toNat]?

theorem ReadClass.ofPortCode_portCode (cls : ReadClass) : ofPortCode cls.portCode = some cls := by
  cases cls <;> rfl

/-- A coding that can be read back is injective, and it uses no code that reads back as nothing. -/
theorem injective_and_ne_of_readBack {α β : Type} {code : α → β} {ofCode : β → Option α} {unused : β}
    (hback : ∀ a, ofCode (code a) = some a) (hunused : ofCode unused = none) :
    (∀ a a', code a = code a' → a = a') ∧ ∀ a, code a ≠ unused := by
  refine ⟨fun a a' h => ?_, fun a h => ?_⟩
  · exact Option.some.inj (((hback a).symm.trans (congrArg ofCode h)).trans (hback a'))
  · have hnone := (hback a).symm.trans ((congrArg ofCode h).trans hunused)
    cases hnone

/-- Settles O9: each code reads back as its own member, and the reserved codes as none. -/
theorem portCodesAreDistinctAndUnreserved : Obligations.PortCodesAreDistinctAndUnreserved := by
  obtain ⟨hmodeInj, hmodeNe⟩ := injective_and_ne_of_readBack (unused := 3) WriteUpdateMode.ofOpt_portCode rfl
  obtain ⟨hclassInj, hclassNe⟩ := injective_and_ne_of_readBack (unused := 7) ReadClass.ofPortCode_portCode rfl
  exact ⟨⟨rfl, rfl, rfl⟩, ⟨rfl, rfl, rfl, rfl, rfl, rfl, rfl⟩, hmodeInj, hmodeNe, hclassInj, hclassNe⟩

/-! ## Which operations have an operand check (R91, R92) -/

/-- Only a `WRITE` row, and a getter of a channel above 7, is ill formed. -/
theorem eq_of_illFormed {i : Instr} (hwf : i.wellFormed = false) :
    (∃ (m : WriteUpdateMode) (ch : Nibble) (code : CodeOperand), i = writeRow m ch code) ∨
    (∃ ch : Nibble, 8 ≤ ch.toNat ∧ (i = .getval ch ∨ i = .getdac ch)) := by
  cases i with
  | writeWo ch code => exact .inl ⟨.wo, ch, code, rfl⟩
  | writeWu1 ch code => exact .inl ⟨.wu1, ch, code, rfl⟩
  | writeWuall ch code => exact .inl ⟨.wuall, ch, code, rfl⟩
  | getval ch => exact .inr ⟨ch, Nat.lt_of_not_le (of_decide_eq_false hwf), .inl rfl⟩
  | getdac ch => exact .inr ⟨ch, Nat.lt_of_not_le (of_decide_eq_false hwf), .inr rfl⟩
  | _ => cases hwf

end Sys2Proof

namespace Sys2Proof.Machine

/-! ## Reset (R100) -/

/-- Settles O1: the reset event is enabled in every state, and keeps only the events still to come. -/
theorem resetEventRestoresResetState : Obligations.ResetEventRestoresResetState :=
  fun _ _ hinbox => (step_event hinbox).trans perform_reset

/-- Settles O2: at reset the port is silent, and the latch is `none`. -/
theorem resetStateIsCoherent : Obligations.ResetStateIsCoherent := decide_eq_true reset_rsel

/-! ## Events that are not enabled (R102, R106) -/

section
variable {s : State} {ev : Event} {rest : List Event}

theorem step_request_pending {r : Request} (hinbox : s.inbox = .request r :: rest) (hs : s.rsel ≠ .none) :
    step s = .refused .readPending :=
  (step_event hinbox).trans (perform_request_pending (s := s.present rest) hs r)

theorem step_reply_idle {rx0 rx1 : Byte} (hinbox : s.inbox = .reply rx0 rx1 :: rest) (hs : s.rsel = .none) :
    step s = .refused .noReadPending :=
  (step_event hinbox).trans (perform_reply_idle (s := s.present rest) hs rx0 rx1)

theorem step_request_unlisted {r : Request} (hinbox : s.inbox = .request r :: rest) (hs : s.rsel = .none)
    (hopt : r.optListed = false) : step s = .refused (.undecoded .unlistedOption) :=
  (step_undecoded_iff hs hinbox _).mpr (decodeRequest_eq_error.mpr ⟨hopt, rfl⟩)

/-- An event that the host's duties forbid is refused: a request while a read is pending or of an unlisted
option, or a reply while none is pending. -/
theorem step_forbidden (hinbox : s.inbox = ev :: rest) (hforbidden : Event.allowed s.rsel ev = none) :
    ∃ r, step s = .refused r := by
  cases ev with
  | request r =>
    have hnot : ¬(s.rsel = .none ∧ r.optListed = true) := fun h => nomatch (if_pos h).symm.trans hforbidden
    by_cases hs : s.rsel = .none
    · have hopt : r.optListed = false := Bool.eq_false_iff.mpr fun hlisted => hnot ⟨hs, hlisted⟩
      exact ⟨_, step_request_unlisted hinbox hs hopt⟩
    · exact ⟨_, step_request_pending hinbox hs⟩
  | reply rx0 rx1 =>
    by_cases hs : s.rsel = .none
    · exact ⟨_, step_reply_idle hinbox hs⟩
    · exact nomatch (if_neg hs).symm.trans hforbidden
  | abort | reset => cases hforbidden

end

/-- Settles O11: an event that the host's duties allow is taken, and any other is refused. -/
theorem stepCompletesExactlyWhenAllowed : Obligations.StepCompletesExactlyWhenAllowed :=
  fun _ _ _ hinbox => ⟨fun _ hallowed => step_allowed hinbox hallowed, step_forbidden hinbox⟩

/-- Settles O12: the enabling check comes before the event is decoded. -/
theorem overlappingTransactionsAreRefused : Obligations.OverlappingTransactionsAreRefused :=
  fun _ _ => ⟨fun _ hinbox hs => step_request_pending hinbox hs, fun _ _ hinbox hs => step_reply_idle hinbox hs⟩

/-! ## `InvalidChannel` (R92, R93) -/

/-- Settles O25: the check of the value is the first of `EncValue`. -/
theorem valueCheckPrecedesChannelCheck : Obligations.ValueCheckPrecedesChannelCheck := encValue_value_error

theorem not_writesChannel_iff {m : WriteUpdateMode} {ch : Nibble} :
    ¬ writesChannel m ch ↔ 8 ≤ ch.toNat ∧ ¬(ch = Config.rc.chAll ∧ m = .wuall) := by
  rw [not_or, Nat.not_le]
  rfl

/-- The check of the channel is the second, and no other check answers its kind. -/
theorem encValue_eq_invalidChannel_iff {m : WriteUpdateMode} {ch : Nibble} {code : CodeOperand} :
    encValue Config.rc ch m code = .error .invalidChannel ↔ code.toNat ≤ 4095 ∧ ¬ writesChannel m ch := by
  rw [encValue_rc]
  by_cases hcode : 4095 < code.toNat
  · rw [if_pos hcode]
    exact iff_of_false nofun fun h => absurd hcode (Nat.not_lt.mpr h.1)
  · rw [if_neg hcode]
    by_cases hch : writesChannel m ch
    · rw [if_pos hch]
      exact iff_of_false nofun fun h => h.2 hch
    · rw [if_neg hch]
      exact iff_of_true rfl ⟨Nat.le_of_not_lt hcode, hch⟩

section
variable {i : Instr} {s t : State}

/-- The port carries `InvalidChannel` of a `WRITE` row exactly for a code in range and a channel that the row
does not take. -/
theorem exec_writeRow_invalidChannel_iff {m : WriteUpdateMode} {ch : Nibble} {code : CodeOperand}
    (h : exec (writeRow m ch code) s = .next t) :
    t.resp = .error .invalidChannel ↔
      code.toNat ≤ 4095 ∧ 8 ≤ ch.toNat ∧ ¬(ch = Config.rc.chAll ∧ m = .wuall) := by
  rw [exec_writeRow] at h
  rw [writeCode_resp_eq_error_iff h, encValue_eq_invalidChannel_iff, not_writesChannel_iff]

theorem selectChannel_invalidChannel {opc ch : Nibble} (h : selectChannel opc ch s = .next t)
    (hch : 8 ≤ ch.toNat) : t.resp = .error .invalidChannel := by
  obtain ⟨hs, -⟩ := selectChannel_next h
  rw [selectChannel_outOfRange hs hch] at h
  cases h
  rfl

end

/-- Settles O22: an operation that answers an error is ill formed, so it is a `WRITE` row, whose errors are
those of `EncValue`, or a getter of a channel above 7. -/
theorem invalidChannelExactlyOutsideTheValidSet : Obligations.InvalidChannelExactlyOutsideTheValidSet := by
  refine fun i s t h => ⟨fun hresp => ?_, ?_⟩
  · have hwf : i.wellFormed = false :=
      Bool.eq_false_iff.mpr fun hwf => resp_ne_error_of_wellFormed h hwf _ hresp
    obtain ⟨m, ch, code, rfl⟩ | hgetter := eq_of_illFormed hwf
    · exact .inl ⟨m, ch, code, rfl, (exec_writeRow_invalidChannel_iff h).mp hresp⟩
    · exact .inr hgetter
  · rintro (⟨m, ch, code, rfl, hbad⟩ | ⟨ch, hch, rfl | rfl⟩)
    · exact (exec_writeRow_invalidChannel_iff h).mpr hbad
    · exact selectChannel_invalidChannel h hch
    · exact selectChannel_invalidChannel h hch

/-! ## Errors have no effect (R94) -/

/-- Of the ways in which an operation completes, only `raise` answers an error (R94). -/
theorem exec_error {i : Instr} {s t : State} {k : ErrorKind} (h : exec i s = .next t) (hresp : t.resp = .error k) :
    s.rsel = .none ∧ t = s.respond (.error k) := by
  obtain ⟨m, -, -, rfl⟩ | ⟨f, -, rfl⟩ | ⟨k', hs, rfl⟩ | ⟨b0, cls, -, -, rfl⟩ | ⟨d, -, rfl⟩ | ⟨-, rfl⟩ :=
    exec_next h
  case inr.inr.inl =>
    cases hresp
    exact ⟨hs, rfl⟩
  all_goals cases hresp

/-- Settles O23: the operation that answers an error was a `raise`, and the response is read off. -/
theorem errorsHaveNoEffect : Obligations.ErrorsHaveNoEffect := by
  intro i s t k h hresp
  obtain ⟨hs, rfl⟩ := exec_error h hresp
  refine ⟨hs, rfl, rfl, rfl, ?_⟩
  cases k with
  | invalidValue | invalidChannel => rfl

end Sys2Proof.Machine
